-- ==== Sys2Proof/Word.lean ====
section
/-! DEFINITION. The word types of the KZ-760 model and their plainest arithmetic (R1: bit 0 is the least significant bit). -/
namespace Sys2Proof

/-- One byte. -/
abbrev Byte := BitVec 8

/-- A 64-byte structure (submission entry, operation descriptor, tensor descriptor) as one
little-endian number: byte `k` is bits `[8k+7 : 8k]` (R1). -/
abbrev Block := BitVec 512

/-- Bits `[lo + w - 1 : lo]` of the value that starts at byte `off` of a block, as a number. -/
def Block.nat (b : Block) (off lo w : Nat) : Nat :=
  (b.toNat >>> (8 * off + lo)) % 2 ^ w

/-- One bit of a block: bit `lo` of the value that starts at byte `off`. -/
def Block.bit (b : Block) (off lo : Nat) : Bool := b.nat off lo 1 == 1

end Sys2Proof
end

