-- ==== Sys2Proof/Syntax.lean ====
section
/-! DEFINITION. The commands of the block: one constructor of `Instr` per row of spec/opcode_table.json, with the operands the step takes from outside. -/
namespace Sys2Proof

/-- The part of a submission entry (R140, Table 7-2) that a command row is given: its flags, REQ_ID,
TARGET and the 40-byte parameter block. OPCODE is the row's own; reserved bits of the header are zero. `cut` says that the CP takes
an exception between the commit of the command and its completion (R158, Table 7-10). -/
structure Cmd where
  fence : Bool := false
  nowait : Bool := false
  irqOff : Bool := false
  reqId : BitVec 32
  target : BitVec 32 := 0
  params : BitVec 320 := 0
  cut : Bool := false
deriving DecidableEq, Repr

/-- One unit's start test (R85): TYPE and LOCATION of Table 5-5, whether the first test failed, whether
the retest failed, and the temperature recorded. -/
structure TestResult where
  typ : Nat
  loc : Nat
  failed : Bool
  again : Bool
  temp : Int := 40
deriving DecidableEq, Repr

/-- One calibrated cost (R198): operation code, format code, R in work per cycle, K0 in ns. -/
structure Cost where
  op : Nat
  fmt : Nat
  r : Nat
  k0 : Nat
deriving DecidableEq, Repr

/-- What a read of stored data meets (Table 12-5): nothing, or an error of the first kind with the
outcome of the retry. -/
inductive ReadCheck where
  | clean
  | correctable (again : Bool)
  | uncorrectable (again : Bool)
deriving DecidableEq, Repr

/-- A request that reaches a Basin (R244): the partition of its master (33 for ADMIN), its stream, whether
it is a read, whether it is maintenance, its address (affine key) and length, and the job deadline of an
LC read. -/
structure BasinReq where
  part : Nat
  stream : Option Nat
  read : Bool
  lc : Bool
  mnt : Bool
  addr : Nat
  bytes : Nat
  deadline : Nat
  seq : Nat := 0
deriving DecidableEq, Repr

/-- A field of configuration space that chapter 06 gives (R110 to R114). `bar i` is the function's 32-bit BAR register i, `vfBar i`
that of the VFs in the PF's SR-IOV capability. -/
inductive CfgReg where
  | vendorId | deviceId | revisionId | classCode | subsystemVendorId | subsystemId
  | totalVfs | firstVfOffset | vfStride | numVfs | vfDeviceId | ariHierarchy
  | bar (i : Nat) | vfBar (i : Nat) | barSize (i : Nat) | barResizable (i : Nat)
  | flrCapable | powerState | powerStates | aspm | ltr | aer | aerStatus | acs | ptm | doe
  | maxPayload | maxReadRequest | completionBoundary | tagBits | outstanding
  | ats | pri | atomicOps | tph
deriving DecidableEq, Repr

/-- A Coeno message (R356, Table 19-3) with its extension, if any, and its data or operand bytes. -/
structure Msg where
  typ : Nat
  lc : Bool := false
  ext : Option (Nat × Nat) := none
  src : Nat
  dst : Nat
  hops : Nat := 0
  tag : Nat := 0
  addr : Nat := 0
  len : Nat := 0
  part : Nat := 0
  data : List Byte := []
deriving DecidableEq, Repr

/-- A Coeno flit (R354, Table 19-2) as it arrives: header fields, whether CHECK passes, and the payload. -/
structure Flit where
  seq : Nat
  ack : Nat
  nak : Bool
  vc : Nat
  idle : Bool
  keyPhase : Bool := false
  first : Nat := 255
  crVc : Nat := 0
  credits : Nat := 0
  checkOk : Bool := true
  payload : List Byte := []
deriving DecidableEq, Repr

/-- What a peer announces in COENO_INIT (R97, R416): chip ID, lifecycle state, whether its certificates
and signature verify. -/
structure PeerInit where
  chip : Nat
  lifecycle : Nat
  authentic : Bool
deriving DecidableEq, Repr

/-- How a training state of a Pass port ends (R96): done, or failed with the lanes over the FEC limit. -/
inductive TrainResult where
  | ok (peer : PeerInit)
  | failed (lanes : BitVec 8)
deriving DecidableEq, Repr

/-- The operand of a SYNC_OP (R222): the operation, the full handle and the value. -/
inductive SyncVerb where
  | wait | signal | recover
deriving DecidableEq, Repr

/-- A regulator's STATUS_WORD as PMBus returns it (R52): the fault bits that count, and a warning bit. -/
structure RegStatus where
  channel : Nat
  high : Bool
  low : Bool
  current : Bool
  temp : Bool
  warn : Bool
  acked : Bool := true
deriving DecidableEq, Repr

/-- How the configuration of a regulator over PMBus went (R51, R53): the VOUT_MODE byte it answered, and whether every
transaction was acknowledged and passed its check, the retries included. -/
structure RegConf where
  channel : Nat
  mode : Nat := 0
  acked : Bool := true
deriving DecidableEq, Repr

/-- Why a Basin retrain is triggered (R95). -/
inductive RetrainCause where
  | command | eye | temperature
deriving DecidableEq, Repr

/-- A JTAG instruction (Table 21-8). -/
inductive JtagOp where
  | idcode | bypass | sample | extest | scan
deriving DecidableEq, Repr

/-- What ends with a media row (R387, R400, R404). -/
inductive RowEnd where
  /-- The row ends and the picture goes on; core time in tenths of a nanosecond. Of a decoder also the bytes of input consumed and
  whether they belong to a picture that is not decoded to its end yet. -/
  | row (time used : Nat) (part : Bool)
  /-- The last row of an encoded picture ends. -/
  | picture (time : Nat)
  /-- A decoded frame ends: width, height, whether its samples have 10 bits, whether it is a random-access picture, bytes consumed,
  its place in output order, how many of the frames then held are output, samples of the planes. -/
  | frame (time w h : Nat) (ten rap : Bool) (used order out : Nat) (luma chroma : List (BitVec 16))
  /-- A decoder meets damage: cause 1 to 3, byte offset, block position. -/
  | damage (time cause off x y : Nat)
deriving DecidableEq, Repr

/-- One constructor per row of spec/opcode_table.json. `m` is a mailbox or a function: 0 for the PF (admin),
`n` for VF n, which serves partition n - 1 (R116). -/
inductive Instr where
  -- Lolin commands (08)
  | devInfo (m : Nat) (c : Cmd) | devCaps (m : Nat) (c : Cmd) | devTimeGet (m : Nat) (c : Cmd)
  | devResetWarm (m : Nat) (c : Cmd) | devPowerState (m : Nat) (c : Cmd)
  | profileApply (m : Nat) (c : Cmd) | profileWrite (m : Nat) (c : Cmd) | profileRead (m : Nat) (c : Cmd)
  | partCreate (m : Nat) (c : Cmd) | partDestroy (m : Nat) (c : Cmd) | partReset (m : Nat) (c : Cmd)
  | partQuery (m : Nat) (c : Cmd)
  | streamOpen (m : Nat) (c : Cmd) | streamSubmit (m : Nat) (c : Cmd) | streamCancel (m : Nat) (c : Cmd)
  | streamClose (m : Nat) (c : Cmd) | streamQuery (m : Nat) (c : Cmd)
  | memAlloc (m : Nat) (c : Cmd) | memFree (m : Nat) (c : Cmd) | ledgerReserve (m : Nat) (c : Cmd)
  | ledgerRelease (m : Nat) (c : Cmd) | ledgerQuery (m : Nat) (c : Cmd)
  | kvPoolCreate (m : Nat) (c : Cmd) | kvPoolDestroy (m : Nat) (c : Cmd) | kvFork (m : Nat) (c : Cmd)
  | kvTruncate (m : Nat) (c : Cmd) | kvPinPrefix (m : Nat) (c : Cmd)
  | syncAlloc (m : Nat) (c : Cmd) | syncFree (m : Nat) (c : Cmd) | syncRecover (m : Nat) (c : Cmd)
  | syncQuery (m : Nat) (c : Cmd)
  | fordMap (m : Nat) (c : Cmd) | fordUnmap (m : Nat) (c : Cmd)
  | mediaEncOpen (m : Nat) (c : Cmd) | mediaEncClose (m : Nat) (c : Cmd) | mediaDecOpen (m : Nat) (c : Cmd)
  | mediaDecFlush (m : Nat) (c : Cmd) | mediaDecClose (m : Nat) (c : Cmd) | mediaKeyRequest (m : Nat) (c : Cmd)
  | mediaRoiSet (m : Nat) (c : Cmd) | mediaLayerSet (m : Nat) (c : Cmd)
  | passRetrain (m : Nat) (c : Cmd) | passStatus (m : Nat) (c : Cmd) | valleyJoin (m : Nat) (c : Cmd)
  | valleyLeave (m : Nat) (c : Cmd) | valleyRouteSet (m : Nat) (c : Cmd)
  | collGroupCreate (m : Nat) (c : Cmd) | collGroupDestroy (m : Nat) (c : Cmd)
  | acctRead (m : Nat) (c : Cmd) | acctModeSet (m : Nat) (c : Cmd)
  | secAttest (m : Nat) (c : Cmd) | secDebugChallenge (m : Nat) (c : Cmd) | secDebugUnlock (m : Nat) (c : Cmd)
  | secDebugLock (m : Nat) (c : Cmd) | secLifecycleSet (m : Nat) (c : Cmd)
  | fwDownload (m : Nat) (c : Cmd) | fwVerify (m : Nat) (c : Cmd) | fwActivate (m : Nat) (c : Cmd)
  | fwConfirm (m : Nat) (c : Cmd) | fwStatus (m : Nat) (c : Cmd)
  | testDefectsRead (m : Nat) (c : Cmd) | testRun (m : Nat) (c : Cmd) | hbmRepair (m : Nat) (c : Cmd)
  | hbmRetrain (m : Nat) (c : Cmd)
  | railStatus (m : Nat) (c : Cmd) | railThreshSet (m : Nat) (c : Cmd) | thermalQuery (m : Nat) (c : Cmd)
  -- mailboxes and the control processor (07)
  | mbxSqTailWrite (m : Nat) (v : BitVec 32) (ide : Bool)
  | entryTake (m : Nat) (e : Block)
  | mbxEnable (m : Nat) (ide : Bool) | mbxDisable (m : Nat) (ide : Bool)
  | mbxCqHeadWrite (m : Nat) (v : BitVec 32) (ide : Bool) | mbxEqHeadWrite (m : Nat) (v : BitVec 32) (ide : Bool)
  | evtCoalTimer (m : Nat) (vector : Nat)
  -- clocks and time (02)
  | cpFreqTargetSet (plain code : Nat)
  | avsVoltageWrite (quad steps : Nat) | avsSettled (quad : Nat) | avsSettleTimeout (quad : Nat)
  | plainFreqStep (plain : Nat) | generatorLock (plain : Nat)
  | refFreqEstimate (ppm50 : Int) | refLossDeclared (gap : Nat)
  | ppsInEdge (rising : Bool)
  -- rails (03)
  | railJudgedGood (ch : Nat) (pins : BitVec 2) (regs : List RegConf)
  | railOnTimeout (ch : Nat)
  | railWindowFault (ch reading samples : Nat)
  | railGlitch (ch reading samples : Nat) | railPgFault (ch low : Nat) | recurrenceWindowEnd (ch : Nat)
  | railFallen (ch reading : Nat) | railOffTimeout (ch : Nat)
  | pmbAlert (words : List RegStatus)
  | pmbusTelemetryPoll (word : RegStatus) (values : List Nat)
  | pmbusVoutPoll (ch mv : Nat) (acked : Bool) | pmbusSclTimeout (ch : Nat)
  -- Plains and chip power (04)
  | plainThermalSample (plain : Nat) (quarters : List Int)
  | plainFreqLimitStep (plain : Nat) | plainThrottleRelease (plain : Nat)
  | plainThermalTrip (plain : Nat) (quarters : Int)
  | plainIdle (plain : Nat) | plainRetEntry (plain : Nat) | plainRetExitDone (plain : Nat) | plainOff (plain : Nat)
  | pwrWakeWrite (v : BitVec 32)
  | pldmSensorRead (sensor : Nat)
  | keeperBar0Access (m off : Nat) (write : Option (BitVec 32))
  -- bring-up and resets (04, 05)
  | secureBootDone (selfTests : Bool) (part : Option (Nat × Bool)) | startTestDone (results : List TestResult)
  | calibrationDone (costs : List Cost) (beRate : Nat)
  -- host interface (06)
  | vfFlr (n : Nat) | vfEnableSet (numVfs : Nat) (ari : Bool)
  | bar2Resize (m shift : Nat) | msixUnmask (m vector : Nat) (ide : Bool)
  | ideKmKeyProg (f : Nat) (key : BitVec 256) | ideKmKeySetGo (f : Nat) | ideKmKeySetStop (f : Nat)
  | lockInterface (n : Nat) | stopInterface (n : Nat)
  | spdmRequest (code slot : Nat) | ptmDialogue (master : Nat)
  | fordDbWrite (m w : Nat) (v : BitVec 32) (ide : Bool) | fordRescan (m w : Nat)
  | fordFlagWrite (m w byte : Nat) (v : BitVec 32) (ide : Bool)
  | fordDataWrite (m off : Nat) (data : List Byte) (ep ide : Bool)
  | bar2UnmappedAccess (m off : Nat) (write ide : Bool)
  -- registers (24)
  | pwrAlertCauseWrite (v : BitVec 32) | loRegisterRead (m off size : Nat) (ide : Bool)
  | dbgMemDataHiWrite (v : BitVec 32) | dbgCpHalt (v : BitVec 4) | dbgCpStep (v : BitVec 4)
  | registerWrite (m off size : Nat) (v : BitVec 64) (ide : Bool)
  -- operations of descriptors (09, 14 to 20): stream context and descriptor index
  | matmul (s d : Nat) | conv (s d : Nat) | tconv (s d : Nat) | attn (s d : Nat) | norm (s d : Nat)
  | sfu (s d : Nat) | softmax (s d : Nat) | quant (s d : Nat) | copy (s d : Nat) | coll (s d : Nat)
  | syncWait (s d : Nat) | syncSignal (s d : Nat) | kvAppend (s d : Nat) | compose (s d : Nat)
  -- scheduling (10, 11)
  | descriptorEnd (s d : Nat) | preemptAtTileBoundary (s d : Nat)
  | waitTimeout (s : Nat) | remoteWaitResend (s : Nat) | streamTeardown (s : Nat)
  | partDrainDone (p : Nat) | tagForceRetire (kind unit count : Nat)
  | partHbmScrubDone (p b : Nat) | partReady (p : Nat) | frameScrubDone (b frame : Nat)
  -- ledger and Basins (12, 13)
  | ledgerRecovered (kind index dir : Nat)
  | basinArbitrate (b : Nat) (arrivals : List BasinReq) (check : ReadCheck)
  | patrolScrub (b : Nat) (check : ReadCheck)
  | hbmEccReportRead (b : Nat) (rows : List Nat)
  | basinThermalRead (b : Nat) (t : Int) | basinThermalRelease (b : Nat)
  | basinDrainDone (b : Nat)
  | basinTrainDone (b : Nat) (ok : Bool) (rows again lanes : List Nat)
  | basinRetrainTrigger (b : Nat) (cause : RetrainCause)
  -- Pass ports and the Valley (19)
  | passSignalDetect (p : Nat) | passTrainStateDone (p : Nat) (r : TrainResult) | passTrainTimeout (p : Nat)
  | passDriftRetrain (p : Nat) (ppm : Int) | portIdleTimeout (p : Nat)
  | flitReceive (p : Nat) (f : Flit) | flitSend (p : Nat)
  | rdReq (p : Nat) (g : Msg) | wrReq (p : Nat) (g : Msg) | syncOp (p : Nat) (g : Msg)
  | rdRsp (p : Nat) (g : Msg) | wrAck (p : Nat) (g : Msg) | syncRsp (p : Nat) (g : Msg)
  | refuse (p : Nat) (g : Msg) | hold (p : Nat) (g : Msg) | holdTimer (src tag : Nat)
  | release (p : Nat) (g : Msg) | requestTimerExpiry (dst tag : Nat)
  | dedupEntryExpiry (src tag : Nat) | dedupFullResend (dst tag : Nat)
  | collData (p : Nat) (g : Msg) | collReady (p : Nat) (g : Msg) | collSlow (p : Nat) (g : Msg)
  | collWithdrawn (p : Nat) (g : Msg) | collAbort (p : Nat) (g : Msg) | collTimeout (group : Nat)
  | heartbeat (p : Nat) (g : Msg) | join (p : Nat) (g : Msg) | leave (p : Nat) (g : Msg)
  | loss (p : Nat) (g : Msg) | ownerNotice (p : Nat) (g : Msg) | noRouteTimeout (chip : Nat)
  -- media (20)
  | frameLatch (ctx : Nat) | layerGraceExpiry (ctx : Nat)
  | mediaRowStart (core : Nat) | mediaRowEnd (core : Nat) (r : RowEnd)
  -- security and errors (21, 23)
  | sramEccError (typ loc : Nat) (check : ReadCheck) | saddleParityError (loc : Nat) (lasting : Bool)
  | engineCheckError (halfPlain unit : Nat) (lasting : Bool)
  | mediaCoreCheckError (core : Nat) (lasting : Bool)
  -- ends of long steps (05, 08, 22)
  | hbmRepairDone (b : Nat) (ok : Bool) (bad : List Nat)
  | testRunDone (failed again : Bool) | plainPowerUpDone (plain : Nat)
  | pcieLinkTrained (width rate : Nat) (flit : Bool)
  | configurationRequest (m : Nat) (reg : CfgReg) (write : Option (BitVec 32)) (forbidden : Bool) | startInterface (n : Nat) | jtagInstruction (op : JtagOp)
  -- rows without operands
  | cpHeartbeatTick | cpException | cpWatchdogExpiry | cpRestartDone | refQualified
  | relockComplete | ppsLost | ppsOutRise | ppsOutFall | vddAonPowerOn | vddAonPowerLoss | level2Expiry
  | railFaultRecordWritten | chipStateReached | stbySaveDone | pciePmWake | pldmSetStateEffecter | chipWake
  | stbyRestoreDone | perstNAssert | perstNRelease | pcieLinkTrainStart | pcieLinkReset | warmReset | coldReset
  | deviceReady | flashRelease | vfEnableClear | fordPoll | hifPtmMasterLoRead | hifLinkErrRead
  | dbgLogData0Read | dbgTraceData0Read | dbgMemDataLoRead | latenessRecheck | windowStart | retrainStart
  | heartbeatSend | composeFrame | entropyTestFail | debugChallengeLapse | fwVerifyDone | flashSectorProgrammed
deriving DecidableEq, Repr

end Sys2Proof
end

