-- ==== Sys2Proof/Machine/Codes.lean ====
section
/-! DEFINITION. The status codes of Table 23-2 and the event and log codes of Tables 23-3 and 23-4, by the spec's names. -/
namespace Sys2Proof.Machine.ST

def ok : Nat := 0x0000
def okAbandoned : Nat := 0x0001
def okLate : Nat := 0x0002
def lateThrottled : Nat := 0x0003
def busy : Nat := 0x0100
def busyCpRestart : Nat := 0x0101
def invalidArg : Nat := 0x0200
def unknownOpcode : Nat := 0x0201
def idConflict : Nat := 0x0202
def mbxDenied : Nat := 0x0203
def badHandle : Nat := 0x0204
def serviceMode : Nat := 0x0205
def noPartition : Nat := 0x0206
def partitionResetting : Nat := 0x0207
def secDenied : Nat := 0x0208
def fordNotOwned : Nat := 0x0209
def powerStateBlocked : Nat := 0x0301
def powerDownPending : Nat := 0x0302
def profileInUse : Nat := 0x0303
def partExists : Nat := 0x0304
def hpUnavailable : Nat := 0x0305
def quotaExceeded : Nat := 0x0306
def latePredicted : Nat := 0x0401
def jobInvalid : Nat := 0x0402
def streamClosing : Nat := 0x0403
def noMemory : Nat := 0x0501
def addrUnmapped : Nat := 0x0502
def memInUse : Nat := 0x0503
def ledgerFull : Nat := 0x0504
def noReservation : Nat := 0x0505
def kvNoPages : Nat := 0x0601
def kvRange : Nat := 0x0602
def kvNotEmpty : Nat := 0x0603
def kvPoolMismatch : Nat := 0x0604
def kvPoolInUse : Nat := 0x0605
def syncInUse : Nat := 0x0701
def syncNotHeld : Nat := 0x0702
def barrierBroken : Nat := 0x0703
def fordInUse : Nat := 0x0801
def fordOverlap : Nat := 0x0802
def fordBusy : Nat := 0x0803
def mediaCapacity : Nat := 0x0901
def layerProducer : Nat := 0x0902
def portDisabled : Nat := 0x0A01
def chipIdConflict : Nat := 0x0A02
def valleyMismatch : Nat := 0x0A03
def collGroupExists : Nat := 0x0A04
def acctMode : Nat := 0x0B01
def fwRange : Nat := 0x0D01
def fwState : Nat := 0x0D02
def unitInUse : Nat := 0x0E01
def noDefect : Nat := 0x0E02
def repairExhausted : Nat := 0x0E03
def basinFailed : Nat := 0x0E04
def abortedByReset : Nat := 0x8000
def lateDropped : Nat := 0x8401
def cancelled : Nat := 0x8402
def jobFault : Nat := 0x8403
def portFailed : Nat := 0x8A01
def collectiveAborted : Nat := 0x8A02
def fwVerifyFailed : Nat := 0x8D01
def repairFailed : Nat := 0x8E01
def retrainFailed : Nat := 0x8E02

end Sys2Proof.Machine.ST

namespace Sys2Proof.Machine.EV

def deviceReady : Nat := 0x0101
def capsChanged : Nat := 0x0102
def profileInvalid : Nat := 0x0103
def profileAdjusted : Nat := 0x0104
def defectRecordFull : Nat := 0x0105
def refLost : Nat := 0x0106
def refRestored : Nat := 0x0107
def ppsLost : Nat := 0x0108
def railCfgClamped : Nat := 0x0110
def railWarn : Nat := 0x0111
def railFault : Nat := 0x0112
def railFaultLasting : Nat := 0x0113
def powerDownPending : Nat := 0x0114
def pmbusFault : Nat := 0x0115
def plainThrottle : Nat := 0x0116
def plainThrottleClear : Nat := 0x0117
def powerState : Nat := 0x0118
def eventsLost : Nat := 0x0201
def cpFailed : Nat := 0x0202
def mbxViolation : Nat := 0x0203
def fordViolation : Nat := 0x0204
def fordPoisoned : Nat := 0x0205
def fordUnmapped : Nat := 0x0206
def acctFinal : Nat := 0x0207
def jobInvalid : Nat := 0x0301
def jobLate : Nat := 0x0302
def jobDropped : Nat := 0x0303
def streamTeardown : Nat := 0x0304
def streamAcct : Nat := 0x0305
def burstPrefix : Nat := 0x0306
def syncMisuse : Nat := 0x0307
def lockAbandoned : Nat := 0x0308
def barrierBroken : Nat := 0x0309
def softmaxRange : Nat := 0x030A
def kvRefcountSaturated : Nat := 0x030B
def partBusy : Nat := 0x030C
def partBusyClear : Nat := 0x030D
def hbmErrorLasting : Nat := 0x0401
def hbmThermal : Nat := 0x0402
def ledgerOvercommitted : Nat := 0x0403
def guaranteeDegraded : Nat := 0x0404
def ledgerRecovered : Nat := 0x0405
def passErrorLasting : Nat := 0x0501
def passAuthFailed : Nat := 0x0502
def routeLoop : Nat := 0x0503
def peerLost : Nat := 0x0504
def valleyExpelled : Nat := 0x0505
def collectiveAborted : Nat := 0x0506
def layerStale : Nat := 0x0601
def frameSkipped : Nat := 0x0602
def decError : Nat := 0x0603
def mediaCoreLost : Nat := 0x0604
def solramError : Nat := 0x0701
def debugLevel : Nat := 0x0702
def fwFallback : Nat := 0x0703

def tagForceRetire : Nat := 0x0801
def seqOnTimeout : Nat := 0x0802
def seqOffTimeout : Nat := 0x0803
def logTransient : Nat := 0x0804
def logRailFault : Nat := 0x0805
def logBoot : Nat := 0x0806

end Sys2Proof.Machine.EV
end

