-- ==== Sys2Proof/Machine/Bits.lean ====
section
/-! DEFINITION. Byte order, bit fields, lists of registers, sparse byte lists and the CRCs the spec names. -/
namespace Sys2Proof.Machine

/-- Bits `[lo + w - 1 : lo]` of a number. -/
def bits (v lo w : Nat) : Nat := (v >>> lo) % 2 ^ w

/-- One bit of a number. -/
def bit (v i : Nat) : Bool := v.testBit i

/-- A flag as a number. -/
def b2n (b : Bool) : Nat := if b then 1 else 0

/-- A quotient rounded up. -/
def ceilDiv (a b : Nat) : Nat := (a + b - 1) / b

/-- Bytes as a little-endian number (R1). -/
def leNat : List Byte → Nat
  | [] => 0
  | b :: r => b.toNat + 256 * leNat r

/-- The `n` low bytes of a number, lowest first (R1). -/
def leBytes : Nat → Nat → List Byte
  | 0, _ => []
  | n + 1, v => BitVec.ofNat 8 v :: leBytes n (v / 256)

/-- A signed number in `w` bits of two's complement. -/
def sgn (w v : Nat) : Int := if v < 2 ^ (w - 1) then (v : Int) else (v : Int) - 2 ^ w

/-- A signed number as its `w`-bit pattern. -/
def twos (w : Nat) (v : Int) : Nat := (v % 2 ^ w).toNat

/-- `x` limited to a counter's maximum (saturating counters, chapter 24). -/
def sat (w x : Nat) : Nat := min x (2 ^ w - 1)

/-- A register list with place `i` changed by `f`; a place that is not there changes nothing. -/
def updAt {α : Type} : List α → Nat → (α → α) → List α
  | [], _, _ => []
  | x :: r, 0, f => f x :: r
  | x :: r, i + 1, f => x :: updAt r i f

/-- The first `some` of a function over `lo, lo + 1, …, lo + n - 1`. -/
def findFrom {α : Type} (f : Nat → Option α) : Nat → Nat → Option α
  | _, 0 => none
  | lo, n + 1 => match f lo with
    | some a => some a
    | none => findFrom f (lo + 1) n

/-! ### Sparse bytes with a default, addresses rising -/

/-- The listed byte at an address. -/
def cellAt : List Host.Cell → Nat → Option Byte
  | [], _ => none
  | (a, b) :: r, k => if a = k then some b else if k < a then none else cellAt r k

/-- The list with the byte at `k` written; a byte equal to the default `d` is not listed. -/
def cellPut (d : Byte) : List Host.Cell → Nat → Byte → List Host.Cell
  | [], k, v => if v = d then [] else [(k, v)]
  | (a, b) :: r, k, v =>
    if k < a then (if v = d then (a, b) :: r else (k, v) :: (a, b) :: r)
    else if a = k then (if v = d then r else (k, v) :: r)
    else (a, b) :: cellPut d r k v

/-- The list with every byte of `[lo, hi)` at the default. -/
def cellClear (l : List Host.Cell) (lo hi : Nat) : List Host.Cell :=
  l.filter fun c => c.1 < lo || hi ≤ c.1

/-- A run of bytes written from `k` on. -/
def cellPuts (d : Byte) (l : List Host.Cell) (k : Nat) : List Byte → List Host.Cell
  | [] => l
  | v :: r => cellPuts d (cellPut d l k v) (k + 1) r

/-- `n` bytes read from `k` on. -/
def cellGets (d : Byte) (l : List Host.Cell) (k n : Nat) : List Byte :=
  (List.range n).map fun i => (cellAt l (k + i)).getD d

/-! ### CRCs -/

/-- `n` steps of a reflected CRC. -/
def crcBits (poly : Nat) : Nat → Nat → Nat
  | 0, c => c
  | n + 1, c => crcBits poly n (if c % 2 = 1 then (c / 2) ^^^ poly else c / 2)

/-- CRC-32C (Castagnoli, reflected; log entry 15). -/
def crc32c (l : List Byte) : Nat :=
  (l.foldl (fun c b => crcBits 0x82F63B78 8 (c ^^^ b.toNat)) 0xFFFFFFFF) ^^^ 0xFFFFFFFF

/-- `n` steps of the CRC of R87, most significant bit first. -/
def crc16Bits : Nat → Nat → Nat
  | 0, c => c
  | n + 1, c => crc16Bits n (if c ≥ 0x8000 then ((c * 2) % 0x10000) ^^^ 0x1021 else c * 2)

/-- CRC-16 with polynomial 0x1021 and initial value 0xFFFF, most significant bit first (R87). -/
def crc16 (l : List Byte) : Nat :=
  l.foldl (fun c b => crc16Bits 8 (c ^^^ (b.toNat * 256))) 0xFFFF

/-- A word of a 64-bit value. -/
def wordOf (v : Nat) (hi : Bool) : Nat := if hi then v / 2 ^ 32 % 2 ^ 32 else v % 2 ^ 32

/-- Low and high word of a 64-bit register replaced. -/
def setLo (v w : Nat) : Nat := v / 2 ^ 32 * 2 ^ 32 + w
def setHi (v w : Nat) : Nat := v % 2 ^ 32 + w * 2 ^ 32

end Sys2Proof.Machine
end

