-- ==== Sys2Proof/Config.lean ====
section
/-! DEFINITION. What the spec leaves open, as free values (opaque constants with no body), and the fixed figures of the device. -/
namespace Sys2Proof.Config

/-- Log entry 1. A byte of memory on another chip of the Valley, as the `k`-th free value: what another
chip's memory holds is not this chip's state (R189, R340). -/
opaque remoteByte : Nat → Nat → BitVec 8

/-- Log entry 2. A byte of a frame whose key was rotated under R218: unrelated to the old contents (R255). -/
opaque rotatedByte : Nat → Nat → BitVec 8

/-- Log entry 3. Which of two old or written values a destination granule holds where R231, R304, R383
or the like leave it unspecified. -/
opaque cutChoice : Nat → Nat → Bool

/-- Log entry 3. A byte written before an operation was cut, where only the whole operation's value is defined. -/
opaque cutByte : Nat → Nat → BitVec 8

/-- Log entry 144. The ACC52 value of a cell that a save slot holds: the save's number, row and column (R203, R306). -/
opaque savedCell : Nat → Nat → Nat → BitVec 52

/-- Log entry 144. A byte of the rest of a save slot, in the device's own form (R306). -/
opaque savedByte : Nat → Nat → BitVec 8

/-- Log entry 160. AES-256-GCM of a Coeno flit (R354): the key, as the session it was derived in (0 a zeroised slot) and its number
there, the port, the 96-bit nonce, the authenticated bytes and the payload; the ciphertext and the tag's 64 bits. -/
opaque gcmText : Nat → Nat → Nat → BitVec 96 → List (BitVec 8) → List (BitVec 8) → List (BitVec 8)
opaque gcmTag : Nat → Nat → Nat → BitVec 96 → List (BitVec 8) → List (BitVec 8) → BitVec 64
/-- Log entry 160. The CRC-64 of BLANK, whose polynomial the spec does not name (R354). -/
opaque crc64 : List (BitVec 8) → BitVec 64
/-- Log entry 160. The 32-bit salt of a port (R355), by session, port and key number. -/
opaque portSalt : Nat → Nat → Nat → BitVec 32

/-- Log entry 158. The stripe in which a pre-emption met a slice: the pre-emption's number and the slice (R352). -/
opaque cutStripe : Nat → Nat → Nat

/-- Log entry 159. The output tile whose panels a half-plain's store holds after an operation: the operation's number and the
half-plain (R289, R298). -/
opaque panelTile : Nat → Nat → Nat
/-- Log entry 159. Reduction steps of a panel of a CONV, TCONV or ATTN: the operation's number, the half-plain. -/
opaque panelSteps : Nat → Nat → Nat
/-- Log entry 159. The operand that a lane of such a panel holds, as a code of its format: the operation's number, the half-plain,
operand B or not, the lane and the reduction index. -/
opaque panelCode : Nat → Nat → Bool → Nat → Nat → Nat

/-- Log entry 4. The combination order of R298: of a descriptor and its half-plain count, an element, and the
element's addends (numerator, exponent), the `k`-th choice of how its chunk sums are combined. -/
opaque combinationChoice : Nat → Nat → List (Int × Int) → Nat → Nat

/-- Log entry 5. Result significand of a special function inside its accuracy bound (R311, R313, R316,
R336, R347, R479): function code, operand key, nothing else. The value is used only after it is limited
to what the spec states of it. -/
opaque sfuValue : Nat → Int → Int → Int → Int → Int

/-- Log entry 6. Energy estimate of a descriptor in microjoule (Table 10-6, counter 7). -/
opaque energy : Nat → Nat

/-- Log entry 7. The SHA-384 and ECDSA P-384 results of Solram (Table 21-1): named algorithms whose
arithmetic the spec does not give. -/
opaque sha384 : List (BitVec 8) → BitVec 384
/-- Log entry 7. ECDSA P-384 verification: public key, message, signature. -/
opaque ecdsaVerify : List (BitVec 8) → List (BitVec 8) → List (BitVec 8) → Bool
/-- Log entry 7. ECDSA P-384 signature (96 bytes) by a device key over a message. -/
opaque ecdsaSign : Nat → List (BitVec 8) → BitVec 768
/-- Log entry 7. A block of DRBG output. -/
opaque drbg : Nat → BitVec 256

/-- Log entry 8. Vendor keys of the boot ROM (firmware, lifecycle, debug): 96 bytes each. -/
opaque vendorKey : Nat → List (BitVec 8)

/-- Log entry 9. A byte of an encoded picture (HEVC or AV1 bitstream): frame stamp, context, what the encoder is told, offset. -/
opaque encodedByte : Nat → Nat → List Int → Nat → BitVec 8
/-- Log entry 9. Length in bytes of an encoded picture: context, frame number, what the encoder is told. -/
opaque encodedLength : Nat → Nat → List Int → Nat

/-- A byte of the reconstructed picture that an encoder keeps as reference: latch stamp, context, what the encoder is told, offset (R388, R395; log entry 9). -/
opaque referenceByte : Nat → Nat → List Int → Nat → BitVec 8
/-- Log entry 9. The quantiser that rate control gives a picture, before the regions of R398: context, frame number. -/
opaque pictureQp : Nat → Nat → Int

/-- Log entry 60. What a NaN of a composed pixel counts as, before it is clamped (R393): the spec gives it no value. -/
opaque nanPixel : Nat → Int

/-- Log entry 10. The kernels of the KZ-520 compatibility mode (R320), which the spec names and does not
give: function code and operands; within 2 ulp of the destination format. -/
opaque kz520 : Nat → List Int → Int

/-- Log entry 11. The identity and alias certificates, in DER, of the attestation report (R419). -/
opaque certificates : Nat → List (BitVec 8)

/-- Log entry 12. Ticks between two nanoseconds that a slew moves, for each move: used only above the 5,000 of R27. -/
opaque slewGap : Nat → Nat

/-- Log entry 130. The core voltage a Plain needs at a frequency code, in 2.5 mV steps (R16, R55): Plain and code. Used only
inside the range of R54. -/
opaque neededVoltage : Nat → Nat → Nat

/-- Log entry 13. A generic fresh value: where a register or a field is undefined after a step. -/
opaque freshBits : Nat → Nat

/-- Log entry 18. PAYLOAD of an event whose owning rule lays none out: event code and stamp. -/
opaque eventPayload : Nat → Nat → Nat

/-- Log entry 76. Which of the free numbers a new reservation or collective group takes: the stamp and how many
are free. -/
opaque idChoice : Nat → Nat → Nat

/-- Log entry 49. Whether a bank has a hard-repair resource left, as its stack reports it through its IEEE 1500
port (R92): the bank, and how many hard repairs the defect record holds in it. -/
opaque hardRepairLeft : Nat → Nat → Bool

/-- Log entry 66. Which memory an SRAM array of TYPE 0x0C belongs to: 0 the CP, m + 1 mailbox m, 34 the dedup table,
anything else another block. Table 5-5 numbers the arrays and does not name them. -/
opaque sramArray : Nat → Nat

/-- Log entry 39. Spare rows of an SRAM array of TYPE 0x0C: Table 5-5 gives it row redundancy without a number (R84). -/
opaque sramRows : Nat → Nat

/-- Log entry 50. Redundant lanes of an HBM channel (R93). -/
opaque redundantLanes : Nat

/-- Log entry 149. XTS-AES-256 of a 64-byte data unit: key, 128-bit tweak, plaintext (R254). -/
opaque xtsAes : BitVec 512 → BitVec 128 → List (BitVec 8) → List (BitVec 8)
/-- Log entry 149. The key of a Basin's key slot, and how often it has been replaced (R255). -/
opaque basinKey : Nat → Nat → Nat → BitVec 512
/-- Log entry 149. The 32-bit device code over a granule's ciphertext (R250). -/
opaque deviceCode : List (BitVec 8) → BitVec 32
/-- Log entry 149. The pattern of the code that marks a granule poisoned (R250). -/
opaque poisonPattern : BitVec 32

/-- Log entry 67. The JTAG IDCODE and the boot ROM's measurement: fixed at manufacture and not given. -/
opaque idcode : BitVec 32
/-- See `idcode`. -/
opaque bootRom : BitVec 384

/-! ### Fixed figures of the spec -/

/-- Basin frames that are allocatable (R236). -/
def allocatableFrames : Nat := 8761344
/-- Basin frames that are mapped, the suspend area included (R236). -/
def mappedFrames : Nat := 8781824
/-- Bytes of the interleaved view for each live Basin (Table 12-2): 34,224 MiB. -/
def basinBytes : Nat := 34224 * 1048576
/-- Stream contexts of the device (R192). -/
def streamContexts : Nat := 16384
/-- Sync objects of the device (R221). -/
def syncObjects : Nat := 1024
/-- Reservation records (R261). -/
def reservationRecords : Nat := 8192
/-- Held jobs of a partition at which BUSY is set and cleared (R271). -/
def busySet : Nat := 8192
/-- See `busySet`. -/
def busyClear : Nat := 6144
/-- Nominal Basin rate in MB/s, and in bytes per window (Table 13-1). -/
def basinRate : Nat := 2048000

end Sys2Proof.Config
end

