-- ==== Sys2Proof/Machine/Numbers.lean ====
section
/-! DEFINITION. Exact dyadic numbers, the number formats (R273 to R279), the output converter (R280, R281, R478), the random source (R282) and the MX quantiser (R284 to R286). -/
namespace Sys2Proof.Machine
open Sys2Proof

/-! ### Exact numbers -/

/-- The exact number m × 2^e. -/
structure Dy where
  m : Int
  e : Int
deriving DecidableEq, Repr

def Dy.one : Dy := ⟨1, 0⟩

def Dy.add (a b : Dy) : Dy :=
  if a.m = 0 then b else if b.m = 0 then a
  else
    let e := min a.e b.e
    ⟨a.m * 2 ^ (a.e - e).toNat + b.m * 2 ^ (b.e - e).toNat, e⟩

def Dy.mul (a b : Dy) : Dy := ⟨a.m * b.m, a.e + b.e⟩
def Dy.neg (a : Dy) : Dy := ⟨-a.m, a.e⟩
def Dy.sub (a b : Dy) : Dy := a.add b.neg
def Dy.abs (a : Dy) : Dy := ⟨a.m.natAbs, a.e⟩
def Dy.scale (a : Dy) (k : Int) : Dy := ⟨a.m, a.e + k⟩
def Dy.ofInt (z : Int) : Dy := ⟨z, 0⟩
def Dy.le (a b : Dy) : Bool := 0 ≤ (b.sub a).m
def Dy.lt (a b : Dy) : Bool := 0 < (b.sub a).m
def Dy.max (a b : Dy) : Dy := if a.le b then b else a
def Dy.isNeg (a : Dy) : Bool := a.m < 0

/-- ⌊log2 |x|⌋ of a non-zero number. -/
def Dy.log2 (a : Dy) : Int := (a.m.natAbs.log2 : Int) + a.e

/-- ⌊log2 |n / d|⌋ for non-zero n and d. -/
def quoLog2 (n d : Dy) : Int :=
  let g := n.log2 - d.log2
  if (d.abs.scale g).le n.abs then g else g - 1

/-- ⌊n / (d × 2^sp)⌋, toward negative infinity. -/
def quoFloor (n d : Dy) (sp : Int) : Int :=
  let t := n.e - d.e - sp
  if 0 ≤ t then Int.fdiv (n.m * 2 ^ t.toNat) d.m else Int.fdiv n.m (d.m * 2 ^ (-t).toNat)

/-- n / d to `k` significant bits, toward negative infinity. -/
def quoDy (k : Nat) (n d : Dy) : Dy :=
  if n.m = 0 then ⟨0, 0⟩ else
  let sp := quoLog2 n d - k
  ⟨quoFloor n d sp, sp⟩

/-! ### Values -/

/-- A value of any format: NaN with its sign (R478), infinity, a signed zero, a finite number other than 0. -/
inductive Val where
  | nan (neg : Bool)
  | inf (neg : Bool)
  | zero (neg : Bool)
  | num (d : Dy)
deriving DecidableEq, Repr

/-- An exact sum or difference as a value; zero is +0. -/
def Val.ofDy (d : Dy) : Val := if d.m = 0 then .zero false else .num d

/-- The number of a finite value; 0 for the others. -/
def Val.dy : Val → Dy
  | .num d => d
  | _ => ⟨0, 0⟩

def Val.neg : Val → Bool
  | .nan n => n
  | .inf n => n
  | .zero n => n
  | .num d => d.isNeg

def Val.isNan : Val → Bool
  | .nan _ => true
  | _ => false
def Val.isInf : Val → Bool
  | .inf _ => true
  | _ => false
def Val.isNum : Val → Bool
  | .num _ => true
  | _ => false

/-! ### Floating-point layouts (Table 14-2) -/

/-- Exponent width, stored significand width, bias, and what the top codes are: 0 infinity and NaN, 1 the one NaN of
E4M3, 2 numbers. -/
structure Fmt where
  exp : Nat
  man : Nat
  bias : Nat
  kind : Nat
deriving DecidableEq, Repr

def Fmt.fp32 : Fmt := ⟨8, 23, 127, 0⟩
def Fmt.acc52 : Fmt := ⟨11, 40, 1023, 0⟩
def Fmt.er32 : Fmt := ⟨12, 19, 2047, 0⟩

/-- The floating layout of a format code; none for the integers. -/
def fmtOf : Nat → Option Fmt
  | 0x01 => some Fmt.fp32
  | 0x02 => some ⟨5, 10, 15, 0⟩
  | 0x03 => some ⟨8, 7, 127, 0⟩
  | 0x04 => some ⟨4, 3, 7, 1⟩
  | 0x05 => some ⟨5, 2, 15, 0⟩
  | 0x10 => some ⟨4, 3, 7, 1⟩
  | 0x11 => some ⟨5, 2, 15, 0⟩
  | 0x12 => some ⟨3, 2, 3, 2⟩
  | 0x13 => some ⟨2, 3, 1, 2⟩
  | 0x14 => some ⟨2, 1, 1, 2⟩
  | _ => none

/-- Exponent of the subnormal spacing. -/
def Fmt.emin (f : Fmt) : Int := 1 - (f.bias : Int) - f.man

/-- Magnitude codes: infinity's or the all-ones exponent's, the largest finite, the canonical NaN. -/
def Fmt.infCode (f : Fmt) : Nat := (2 ^ f.exp - 1) * 2 ^ f.man
def Fmt.maxCode (f : Fmt) : Nat :=
  if f.kind = 0 then f.infCode - 1 else if f.kind = 1 then 2 ^ (f.exp + f.man) - 2 else 2 ^ (f.exp + f.man) - 1
def Fmt.nanCode (f : Fmt) : Nat := if f.kind = 0 then f.infCode + 2 ^ (f.man - 1) else 2 ^ (f.exp + f.man) - 1
def Fmt.sign (f : Fmt) (neg : Bool) : Nat := b2n neg * 2 ^ (f.exp + f.man)

/-- The number of a finite magnitude code (R274). -/
def Fmt.mag (f : Fmt) (c : Nat) : Dy :=
  let x := c / 2 ^ f.man
  if x = 0 then ⟨c, f.emin⟩ else ⟨(2 ^ f.man + c % 2 ^ f.man : Nat), f.emin + (x - 1 : Nat)⟩

/-- The value of a bit pattern. -/
def Fmt.decode (f : Fmt) (v : Nat) : Val :=
  let neg := bit v (f.exp + f.man)
  let c := v % 2 ^ (f.exp + f.man)
  if f.kind = 0 && f.infCode ≤ c then (if c = f.infCode then .inf neg else .nan neg)
  else if f.kind = 1 && c = f.nanCode then .nan neg
  else if c = 0 then .zero neg
  else .num (if neg then (f.mag c).neg else f.mag c)

/-- The value of an element's bits, a shared scale apart (R274, R275). -/
def elemVal (code v : Nat) : Val :=
  match fmtOf code with
  | some f => f.decode v
  | none =>
    if code = 0x15 then Val.ofDy ⟨sgn 8 v, -6⟩
    else if code = 0x20 then Val.ofDy ⟨sgn 8 v, 0⟩
    else Val.ofDy ⟨sgn 32 v, 0⟩

/-- An element under its E8M0 scale byte (R279). -/
def underScale (sc : Nat) (v : Val) : Val :=
  if sc = 0xFF then .nan false
  else match v with
    | .num d => .num (d.scale ((sc : Int) - 127))
    | w => w

/-! ### Rounding and conversion -/

/-- Magnitude of a number in units of 2^`sp`: rounded to nearest even, or with the 16-bit random value of R280. -/
def roundTo (sp : Int) (r : Option Nat) (d : Dy) : Nat :=
  let t := d.e - sp
  if 0 ≤ t then d.m.natAbs * 2 ^ t.toNat
  else
    let k := (-t).toNat
    let q := d.m.natAbs / 2 ^ k
    let f := d.m.natAbs % 2 ^ k
    match r with
    | none => if 2 ^ k < 2 * f || (2 * f == 2 ^ k && q % 2 == 1) then q + 1 else q
    | some r => if 65536 ≤ f * 65536 / 2 ^ k + r then q + 1 else q

/-- The magnitude code that a number rounds to, the exponent range unbounded (R281). -/
def Fmt.roundCode (f : Fmt) (r : Option Nat) (d : Dy) : Nat :=
  let sp := max (d.log2 - f.man) f.emin
  roundTo sp r d + (sp - f.emin).toNat * 2 ^ f.man

/-- The output converter for a floating format (R280, R281, Table 14-3). -/
def Fmt.convert (f : Fmt) (sat : Bool) (r : Option Nat) (v : Val) : Nat :=
  match v with
  | .nan n => f.nanCode + f.sign n
  | .zero n => f.sign n
  | .inf n => f.sign n + (if f.kind = 1 then (if sat then f.maxCode else f.nanCode) else f.infCode)
  | .num d =>
    let c := f.roundCode r d
    f.sign d.isNeg +
      (if c ≤ f.maxCode then c
       else if sat then f.maxCode
       else if f.kind = 0 then f.infCode
       else if f.kind = 1 then f.nanCode
       else f.maxCode)

/-- The output converter for an integer format of `w` bits. -/
def convertInt (w : Nat) (r : Option Nat) (v : Val) : Nat :=
  let top : Int := 2 ^ (w - 1) - 1
  let bot : Int := -2 ^ (w - 1)
  match v with
  | .nan _ => 0
  | .zero _ => 0
  | .inf n => twos w (if n then bot else top)
  | .num d =>
    let q : Int := roundTo 0 r d
    twos w (max bot (min top (if d.isNeg then -q else q)))

/-- The output converter: the bits of a value in a format that is not an MX format. -/
def convert (code : Nat) (sat : Bool) (r : Option Nat) (v : Val) : Nat :=
  match fmtOf code with
  | some f => f.convert sat r v
  | none => convertInt (if code = 0x20 then 8 else 32) r v

/-- A value rounded to FP32, ties to even: a single FP32 operation. -/
def toFp32 (v : Val) : Val := Fmt.fp32.decode (Fmt.fp32.convert false none v)

/-! ### The random source (R282) -/

/-- sr_rand. -/
def srRand (seed i : Nat) : Nat :=
  let z : BitVec 64 := BitVec.ofNat 64 (i * 65536 + seed % 65536)
  let z := z + 0x9E3779B97F4A7C15#64
  let z := (z ^^^ (z >>> 30)) * 0xBF58476D1CE4E5B9#64
  let z := (z ^^^ (z >>> 27)) * 0x94D049BB133111EB#64
  let z := z ^^^ (z >>> 31)
  (z >>> 48).toNat

/-! ### The MX quantiser -/

/-- emax of R284. -/
def mxEmax (code : Nat) : Int :=
  match code with
  | 0x10 => 8
  | 0x11 => 15
  | 0x12 => 4
  | 0x13 => 2
  | 0x14 => 2
  | _ => 0

/-- One value of a block written as an element under divisor 2^`k` (case 5 of Table 14-4). -/
def mxElem (code : Nat) (k : Int) (r : Option Nat) (v : Val) : Nat :=
  match fmtOf code with
  | some f =>
    match v with
    | .zero n => f.sign n
    | .inf n => f.sign n + f.infCode
    | .nan _ => 0
    | .num d => f.sign d.isNeg + min (f.roundCode r (d.scale (-k))) f.maxCode
  | none =>
    match v with
    | .num d =>
      let q : Int := min 127 (roundTo (-6) r (d.scale (-k)))
      twos 8 (if d.isNeg then -q else q)
    | _ => 0

/-- The largest magnitude of a list of values, if any is a non-zero number. -/
def maxMag (l : List Val) : Option Dy :=
  l.foldl (fun m v => match v, m with
    | .num d, none => some d.abs
    | .num d, some x => some (x.max d.abs)
    | _, m => m) none

/-- An element of a block as it comes to the quantiser: its value, its random value under ROUND 1, and the largest
finite value of its source's format. -/
structure MxIn where
  v : Val
  r : Option Nat
  big : Dy
deriving DecidableEq, Repr

/-- One block of 32 (R284, R286): its scale byte, its elements, and how many non-zero finite source values became zero. -/
def mxBlock (code : Nat) (sat : Bool) (l : List MxIn) : Nat × List Nat × Nat :=
  let anyInf := l.any (·.v.isInf)
  if l.any (·.v.isNan) || (anyInf && code != 0x11 && !sat) then (0xFF, l.map fun _ => 0, 0)
  else
    let vs := l.map fun x => match x.v with
      | .inf n => if code = 0x11 then x.v else .num (if n then x.big.neg else x.big)
      | v => v
    let s : Nat := match maxMag vs with
      | none => 127
      | some m => (max 0 (min 254 (m.log2 - mxEmax code + 127))).toNat
    let es := (l.zip vs).map fun x => mxElem code ((s : Int) - 127) x.1.r x.2
    let half := 2 ^ (fmtWidth code - 1)
    let lost := ((l.zip es).filter fun x => x.1.v.isNum && x.2 % half == 0).length
    (s, es, lost)
where
  /-- Width of an element's code. -/
  fmtWidth (code : Nat) : Nat := match fmtOf code with
    | some f => f.exp + f.man + 1
    | none => 8

end Sys2Proof.Machine
end

