-- ==== Sys2Proof/Machine/State.lean ====
section
/-! DEFINITION. The state of the KZ-760 as plain data, its outcomes' reason types, and the state right after COLD reset. Every default value below is the field's value at reset. -/
namespace Sys2Proof.Machine

/-- Why a command stops with a fault: the KZ-760 answers every error by a status, an event or a pin, so no
command raises one (safe: nothing is cut short). -/
inductive Fault where
deriving DecidableEq, Repr

/-- Why a command is refused by the model. -/
inductive Refusal where
  /-- The command's meaning is not written; raised by its arm in Dispatch.lean only (safe: the run stops). -/
  | notModelled (mnemonic : String)
deriving DecidableEq, Repr

/-! ### Device time (02) -/

/-- TIME_PPS_CTRL (Table 2-4), the PPS stamp and next value (R29), the output pin (R28), the edge monitor
(R30) and the correction still to be slewed, in ns (R27). `ppsRise` is the stamp of the output's rise; `lastEdge` and
`ppsRise` are signed because a load of device time rebases them. `gap` counts the ticks until the slew may move the
count again. -/
structure Time where
  mode : Nat := 0
  edge : Bool := false
  outEn : Bool := false
  ppsSeen : Bool := false
  ppsLost : Bool := false
  stepDone : Bool := false
  stamp : Nat := 0
  next : Nat := 0
  ppsOut : Bool := false
  ppsRise : Int := 0
  lastEdge : Int := 0
  slew : Int := 0
  gap : Nat := 0
deriving DecidableEq, Repr

/-- The reference monitor and the generators' common lock (R18 to R21, Table 24-9). `lost` says that a declared
loss has met no good estimate since. `outside` counts
consecutive estimates outside 500 ppm; `goodSince` is the start of the current uninterrupted stay inside; `estAt` is the
stamp of the last estimate. -/
structure Clk where
  holdover : Bool := false
  lost : Bool := false
  qualified : Bool := true
  offset : Int := 0
  outside : Nat := 0
  goodSince : Option Nat := none
  estAt : Option Nat := none
  lossCount : Nat := 0
deriving DecidableEq, Repr

/-! ### Rails (03) -/

/-- Rail supervision entry (R43, Table 3-2). -/
structure RailCfg where
  used : Bool := true
  window : Bool := false
  avs : Bool := false
  setpoint : Nat := 0
  uv : Nat := 20
  ov : Nat := 20
  filter : Nat := 9
  onTimeout : Nat := 10
  pmbAddr : Nat := 0
  pmbPage : Nat := 0
  avsSel : Nat := 0
  offWait : Nat := 50
deriving DecidableEq, Repr

/-- What the device has configured in a rail's PMBus regulator (Table 3-7): PAGE, the VOUT_MODE byte read, and VOUT_COMMAND,
VOUT_MAX and the fault limits in microvolts, VOUT_TRANSITION_RATE in mV/µs (0 where it is not written). `strapped` says that
the configuration failed and the regulator runs on its strapped defaults (R53). -/
structure Regulator where
  page : Nat := 0
  enableOnly : Bool := false
  mode : Nat := 0
  command : Nat := 0
  max : Nat := 0
  rate : Nat := 0
  ovLimit : Nat := 0
  uvLimit : Nat := 0
  strapped : Bool := true
deriving DecidableEq, Repr

inductive RailState where
  | off | ramping | good | fault
deriving DecidableEq, Repr

/-- One supervised channel (R35). `target` is in 2.5 mV steps, `reading` in 1.25 mV units. `moving` holds
the old target of an AVS move that has not settled, `settleFault` that its 100 µs have passed (R55). `windowFrom` starts the
recurrence window (R56). `judgedFrom` is the stamp from which excursions are judged (R41, R45); `excFirst` and `excLast` are the
stamps of the first and the last out-of-window sample of the last excursion (Table 2-3); `polledAt` and `voutAt` are those of the
last telemetry poll and READ_VOUT poll (R48, R51). `tried` says that a PMBus transaction has failed once (R53); `resume` is an AVS rail's ACTIVE target while the chip
is in QSC (R55). -/
structure Rail where
  cfg : RailCfg := {}
  enabled : Bool := false
  state : RailState := .off
  enabledAt : Nat := 0
  target : Nat := 0
  resume : Nat := 0
  reading : Nat := 0
  moving : Option Nat := none
  movedAt : Nat := 0
  settleFault : Bool := false
  judgedFrom : Nat := 0
  excFirst : Nat := 0
  excLast : Nat := 0
  faults : Nat := 0
  glitches : Nat := 0
  windowFrom : Option Nat := none
  runFaults : Nat := 0
  runStamp : Nat := 0
  level : Nat := 0
  throttle : Bool := false
  tried : Bool := false
  stale : Bool := false
  telemetry : List Nat := []
  polledAt : Option Nat := none
  voutAt : Option Nat := none
  reg : Regulator := {}
deriving DecidableEq, Repr

/-- Chip power states (Table 0-4) and FAULT_OFF (R48). -/
inductive Chip where
  | active | qsc | stby | off | faultOff
deriving DecidableEq, Repr

/-- The supervisor's sequence: the channels still to raise or to lower, the first one being the one under
way, and the chip state at its end (R46, R48, R50). -/
inductive Seq where
  | steady
  | up (todo : List Nat)
  | down (todo : List Nat) (goal : Chip)
deriving DecidableEq, Repr

/-- The rail-fault record of R49 still to be written (LOG_RAIL_FAULT, Table 23-4). -/
structure RailFault where
  channel : Nat
  cause : Nat
  level : Nat
  plain : Nat := 255
  reading : Nat := 0
  count : Nat := 1
  stamp : Nat := 0
deriving DecidableEq, Repr

/-- A log record (Table 23-5) without its CRC. -/
structure LogRec where
  code : Nat
  cls : Nat
  count : Nat := 1
  source : Nat := 0
  stamp : Nat := 0
  payload : Nat := 0
  boot : Nat := 0
deriving DecidableEq, Repr

/-- The rail supervisor: sequence, ladder (R56), pins (POR_N, FAULT_N and THERMTRIP_N as asserted levels),
PWR_ALERT_CAUSE (Table 24-8) and the last rail-fault record (R58). `aonUp` says that VDD_AON is on (R36); `pmbus` lists the PMBus
transactions of the last row that used the bus, as channel, command code and data (R51). -/
structure Sup where
  aonUp : Bool := true
  seq : Seq := .up [0]
  level2At : Option Nat := none
  faultN : Bool := false
  thermtrip : Bool := false
  powerGood : Bool := false
  alert : BitVec 8 := 0
  record : Option RailFault := none
  recordDue : Bool := false
  last : Option LogRec := none
  pmbus : List (Nat × Nat × Nat) := []
deriving DecidableEq, Repr

/-! ### Plains and chip power (04) -/

inductive PlainState where
  | run | idle | ret | off
deriving DecidableEq, Repr

/-- A host write into the store of a Plain in RET, held by its Saddle (R61): the master, the local address, the bytes, and whether
the TLP was poisoned. -/
structure HeldWrite where
  master : Nat
  addr : Nat
  data : List Byte
  ep : Bool
deriving DecidableEq, Repr

/-- One Plain: power state (R60), generator setting and CP target in 12.5 MHz codes (R14, R17), thermal
limit and duty (R66, R67), a raise that waits for its rail, whether an exit from RET has begun, hottest reading in quarter degrees, and the stamps the thermal table counts from. `stepAt` is the
stamp of the generator's last step (R15), `throttleFrom` that at which a throttle last began (R69), `sampledAt` that of the last temperature sample (R66). -/
structure Plain where
  state : PlainState := .run
  since : Nat := 0
  current : Nat := 76
  target : Nat := 76
  limit : Nat := 104
  duty : Nat := 8
  locked : Bool := false
  hottest : Int := 160
  limitAt : Nat := 0
  stepAt : Option Nat := none
  sampledAt : Option Nat := none
  below : Option Nat := none
  throttleFrom : Option Nat := none
  tripped : Bool := false
  waiting : Option Nat := none
  exiting : Bool := false
  held : List Msg := []
  heldWrites : List HeldWrite := []
deriving DecidableEq, Repr

/-- A command that waits: its mailbox and its REQ_ID. -/
structure Req where
  m : Nat
  id : BitVec 32
deriving DecidableEq, Repr

/-- Chip power state (R70), the entry in progress (R71), and what a wake or STBY exit needs. `warmDue` says that a
DEV_RESET_WARM has completed and its WARM is to start (R163). `rising` says that the AVS rails move back to their ACTIVE targets
on the way out of QSC (R55). `image` is the SHA-384 of the CP image that the suspend area holds (R72, log entry 135). `perstLow` is the stamp at which PERST_N fell, `perstRise` that of
its last rise. -/
structure Power where
  chip : Chip := .active
  entry : Option (Chip × Option Req) := none
  saved : Bool := false
  waking : Bool := false
  rising : Bool := false
  image : List Byte := []
  warmDue : Bool := false
  perstLow : Option Nat := some 0
  perstRise : Nat := 0
deriving DecidableEq, Repr

/-! ### Bring-up and profiles (05) -/

/-- Partition entry (Table 5-10). -/
structure PartCfg where
  hpMask : Nat := 0
  confidential : Bool := false
  retainKeys : Bool := false
  scrubOnReset : Bool := false
  acctOverride : Bool := false
  acctCount : Bool := false
  mediaShare : Nat := 0
  quota : List Nat := [0, 0, 0, 0]
deriving DecidableEq, Repr

/-- The profile in force (Table 5-9), rail entries included. -/
structure Profile where
  chipId : Nat := 0
  acctCount : Bool := false
  retEn : Bool := true
  retDelay : Nat := 50
  admitPct : List Nat := [80, 80, 80, 80]
  throttleDuty : List Nat := List.replicate 8 4
  threshOffset : List Nat := List.replicate 8 0
  freqCap : List Nat := List.replicate 16 76
  passEn : Nat := 0
  width : List Nat := List.replicate 24 0
  elec : List Nat := List.replicate 24 0
  rails : List RailCfg := []
  parts : List PartCfg := []
deriving DecidableEq, Repr

/-- Flash work under way, one step at each FLASH_SECTOR_PROGRAMMED (R108, R109, R428 to R439): a write of the override
record; a profile with its slot's address and the next of its sixteen sectors; a download with its slot's
address, OFFSET, LENGTH, TOTAL and the image offset of the next sector; a selector write with its command's RESULT left to the
command; and step 1 or 2 of FW_CONFIRM. -/
inductive Work where
  | override (r : Req) (valid : Bool) (index : Nat)
  | profile (r : Req) (index addr sector : Nat)
  | download (r : Req) (addr off len total next : Nat)
  | activate (r : Req) (slot arb version : Nat) (confirmed : Bool)
  | confirm (r : Req) (stage : Nat)
deriving DecidableEq, Repr

/-- DEV_BOOT_STAGE (R82, Table 24-2). -/
inductive Stage where
  | rails | secureBoot | test | train | calibrate | ready | service
deriving DecidableEq, Repr

/-- Boot state: stage, profile selection (R106, Table 24-2), the masks of R99, the core map of R88, and
which parts of Table 5-1 are done. `flashPart` is what SFDP has said of the flash: its bytes and whether it is an octal part (R86). `kind` is 0 after COLD and 1 after WARM (LOG_BOOT). `tests` are TEST_RUNs under way with
TYPE and LOCATION, `work` the flash work, first in first out. -/
structure Boot where
  stage : Stage := .rails
  kind : Nat := 0
  pin : Nat := 0
  active : Nat := 0
  defaultUsed : Bool := false
  pendingIdx : Option Nat := none
  badProfile : Option Nat := none
  clamped : Bool := false
  bistTransient : Nat := 0
  coreMap : List (List (Option Nat)) := List.replicate 16 [some 0, some 1, some 2, some 3]
  hpOk : BitVec 32 := BitVec.allOnes 32
  mediaOk : BitVec 16 := BitVec.allOnes 16
  framesRetired : Bool := false
  passReduced : Bool := false
  recordFull : Bool := false
  fatal : Bool := false
  thermalWithdrawn : Bool := false
  calibrated : Bool := false
  flashPart : Option (Nat × Bool) := none
  caps : BitVec 64 := 0
  newDefects : List (Nat × Nat) := []
  tests : List (Req × Nat × Nat) := []
  work : List Work := []
deriving DecidableEq, Repr

/-! ### Host interface (06) -/

/-- Ownership flag of a slot (Table 6-6); `marked` says a violation was reported since the last hand-off
(R129), `taken` that the device's head has passed it, `wrote` which streams' jobs, by their numbers, wrote into it. -/
structure Slot where
  owner : Nat := 0
  seq : Nat := 0
  marked : Bool := false
  taken : Bool := false
  wrote : List (Nat × Nat) := []
deriving DecidableEq, Repr

/-- A Ford window (R124, Table 6-5) with its FORD_STATUS (Table 24-4). `rescans` are the repeats of scans that stopped short, each with
its stamp and TAIL, oldest first (R131). -/
structure Window where
  mapped : Bool := false
  poll : Bool := false
  bind : Nat := 0
  mirrorData : Bool := false
  count : Nat := 0
  shift : Nat := 12
  vector : Nat := 0
  irqEn : Bool := false
  off : Nat := 0
  base : Nat := 0
  mirror : Nat := 0
  target : Nat := 0
  slots : List Slot := []
  head : Nat := 0
  violations : Nat := 0
  unbound : Bool := false
  rescans : List (Nat × Nat) := []
  unmapping : Option Req := none
  shrunk : Bool := false
deriving DecidableEq, Repr

/-- An MSI-X vector (R121, R459): its table entry, its pending bit and the messages sent. -/
structure Vec where
  masked : Bool := true
  pend : Bool := false
  addr : Nat := 0
  data : Nat := 0
  sent : Nat := 0
deriving DecidableEq, Repr

/-- Coalescing of one vector (R455): COUNT, TIME, records since the last message, stamp of the first. -/
structure Coal where
  count : Nat := 0
  time : Nat := 0
  since : Nat := 0
  first : Nat := 0
deriving DecidableEq, Repr

/-- One function: 0 the PF, n VF n (R114 to R123). `tdi` is 0 CONFIG_UNLOCKED, 1 CONFIG_LOCKED, 2 RUN,
3 ERROR; `ideKeys` are the keys Solram holds for its stream, newest first; `dstate` is its power state, 0 D0 or 3 D3hot, and
`urLogged` AER's note of an Unsupported Request (R110); `latch` holds the doorbells the keeper latched, `hiLatch` the latched _HI
halves of R450 and R456 by BAR0 offset. -/
structure Fn where
  enabled : Bool := false
  bar2 : Nat := 30
  windows : List Window := List.replicate 64 {}
  vecs : List Vec := []
  coalCq : Coal := {}
  coalEq : Coal := {}
  unmappedRd : Nat := 0
  unmappedWr : Nat := 0
  tdi : Nat := 0
  ideKeys : List (BitVec 256) := []
  ideUp : Bool := false
  stopping : Bool := false
  dstate : Nat := 0
  urLogged : Bool := false
  latch : List (Nat × Nat) := []
  hiLatch : List (Nat × Nat) := []
deriving DecidableEq, Repr

/-- The PCIe port and PTM (Table 24-7), SR-IOV control (R113), the BAR addresses of the PF and of the VFs (R114). `polled` is the number of the 20 µs period whose poll has run
(R132). -/
structure Hif where
  up : Bool := false
  training : Bool := false
  rate : Nat := 0
  width : Nat := 0
  flit : Bool := false
  pm : Nat := 0
  recoveries : Nat := 0
  replays : Nat := 0
  ptmMaster : Nat := 0
  ptmDevice : Nat := 0
  ptmCount : Nat := 0
  ptmValid : Bool := false
  numVfs : Nat := 0
  ari : Bool := false
  bars : List Nat := [0, 0]
  vfBars : List Nat := [0, 0]
  polled : Nat := 0
deriving DecidableEq, Repr

/-! ### Mailboxes and the CP (07) -/

/-- A completion (Table 7-4) as written in its slot. -/
structure Completion where
  reqId : BitVec 32
  status : Nat
  result : Nat := 0
  phase : Bool := true
  dup : Bool := false
  cpr : Bool := false
deriving DecidableEq, Repr

/-- An event record (Table 7-5). PAYLOAD is its 16 bytes as one little-endian number. -/
structure Event where
  code : Nat
  final : Bool := false
  source : Nat := 0
  stamp : Nat := 0
  payload : Nat := 0
  phase : Bool := true
deriving DecidableEq, Repr

/-- A command in the journal (R153): its entry, TAKEN stamp, whether a restart has crossed it, whether it
is WAITING, the retries held on it (R147), and the CMD slot it took (R162). `deferred` says that a CP exception has come between
its commit and its completion, and `done` is then the STATUS and RESULT of a command COMMITTED whose completion is still to be
written (R158). CHECKED passes within the command's row. -/
structure Taken where
  entry : Block
  stamp : Nat := 0
  cpr : Bool := false
  waiting : Bool := false
  retries : Nat := 0
  slot : Option (Nat × Nat) := none
  deferred : Bool := false
  done : Option (Nat × Nat) := none
deriving DecidableEq, Repr

/-- One entry of the request-ID window (R146). -/
structure Recorded where
  entry : Block
  done : Completion
deriving DecidableEq, Repr

/-- A mailbox (Table 7-1, Table 24-3). `cq` and `eq` hold the records written and not consumed, oldest
first; `cqCount` and `eqCount` count all records written since ENABLE rose. -/
structure Mailbox where
  enable : Bool := false
  ready : Bool := false
  cfgErr : Bool := false
  sqBase : Nat := 0
  cqBase : Nat := 0
  eqBase : Nat := 0
  sqSize : Nat := 0
  cqSize : Nat := 0
  eqSize : Nat := 0
  sqTail : Nat := 0
  sqHead : Nat := 0
  cqHead : Nat := 0
  eqHead : Nat := 0
  lost : Nat := 0
  lostDue : Nat := 0
  cq : List Completion := []
  cqCount : Nat := 0
  eq : List Event := []
  eqCount : Nat := 0
  hold : List Event := []
  taken : List Taken := []
  window : List Recorded := []
deriving DecidableEq, Repr

/-- The control processor (R156 to R159): heartbeat count and stamp, the stamps of recent restarts. -/
structure Cp where
  up : Bool := false
  failed : Bool := false
  beat : Nat := 0
  lastBeat : Nat := 0
  restarts : List Nat := []
deriving DecidableEq, Repr

/-! ### Logs (23) and debug (24) -/

/-- The AON event log (R445), the boot number (R448) and the next crash-log slot; the crash log itself
lies in flash. `snap` is the accounting snapshot of R78: partition, whether it was confidential, totals. -/
structure Logs where
  aon : List LogRec := []
  boot : Nat := 0
  crashNext : Nat := 0
  transient : List (Nat × Nat × Nat) := []
  snap : List (Nat × Bool × List Nat) := []
deriving DecidableEq, Repr

/-- The DBG_ block (R458, Table 24-11): selections, latches, the trace ring (stamp, handle, descriptor, OP, first half-plain)
and the counters, with the JTAG instruction (R420). -/
structure Dbg where
  logSel : Nat := 0
  perfSel : Nat := 0
  traceIdx : Nat := 0
  memAddr : Nat := 0
  memData : BitVec 64 := 0
  cpHalt : BitVec 4 := 0
  cpSteps : List Nat := [0, 0, 0, 0]
  logLatch : List Byte := List.replicate 32 0
  traceLatch : List Byte := List.replicate 16 0
  trace : List (Nat × Nat × Nat × Nat × Nat) := []
  perf : List (List Nat) := List.replicate 16 (List.replicate 8 0)
  jtag : JtagOp := .idcode
  held : List (Nat × Option Nat) := []
deriving DecidableEq, Repr

/-! ### Jobs, streams and scheduling (09, 10) -/

/-- The owner of a LOCK or of a barrier arrival (R223): chip, partition, stream handle. -/
structure Owner where
  chip : Nat
  part : Nat
  stream : Nat
deriving DecidableEq, Repr

/-- What a satisfied leading wait took, to be undone under R186: a LOCK acquired or SEM units. The chip is the one that
holds the object. -/
inductive Took where
  | lock (chip handle : Nat)
  | sem (chip handle units : Nat)
deriving DecidableEq, Repr

/-- What the prediction needs of a descriptor (R197): OP, format, work W, HP_MAX, bytes, OVERLAP. -/
structure Desc where
  op : Nat
  fmt : Nat := 0
  work : Nat := 0
  hpMax : Nat := 0
  bytes : Nat := 0
  overlap : Bool := false
deriving DecidableEq, Repr

/-- A job held by a stream (Table 10-1, QUEUE and RUNNING). `crcs` are the CRC-32Cs of R190: one list a
descriptor, its own first, its tensor descriptors' after it. `waits` counts the leading waits satisfied;
`waitFrom` is the stamp at which the present one was evaluated, `waitUs` its TIMEOUT in µs,
`waitOn` the chip and handle of the object it is queued on; `heard` are the local EVENTs on which its waits were satisfied (R137); `lastWrite` is the latest end-of-write stamp (R391). -/
structure Job where
  addr : Nat
  count : Nat
  deadline : Nat
  stamp : Nat
  number : Nat
  req : Req
  waitEnd : Bool
  pred : Rat := 0
  width : Nat := 1
  crcs : List (List Nat) := []
  descs : List Desc := []
  ended : List Nat := []
  leading : Nat := 0
  waits : Nat := 0
  waitFrom : Option Nat := none
  waitUs : Nat := 0
  waitOn : Option (Nat × Nat) := none
  took : List Took := []
  heard : List Nat := []
  next : Nat := 0
  started : Option Nat := none
  abandoned : Bool := false
  throttled : Bool := false
  softmax : Bool := false
  lastWrite : Option Nat := none
  aborted : Option Nat := none
deriving DecidableEq, Repr

/-- The work of a stream in order: jobs, and the KV commands that R169 orders among them. -/
inductive Item where
  | job (j : Job)
  | gate (r : Req)
deriving DecidableEq, Repr

/-- Stream context states (R193); FREE contexts are not listed. -/
inductive StreamState where
  | opened | closing | teardown
deriving DecidableEq, Repr

/-- A stream's KV map (R325): its pool, the map page and the number of entries of each layer; the rest of the map lies in those
pages. -/
structure KvMap where
  pool : Nat
  maps : List Nat := []
  counts : List Nat := []
deriving DecidableEq, Repr

/-- A stream context (Table 10-1). `held` lists the LOCKs and open arrivals it has
at other chips (R226). `endCause` is the teardown in progress: cause, descriptor and job. -/
structure Stream where
  index : Nat
  gen : Nat
  state : StreamState := .opened
  owner : Nat
  cls : Nat := 2
  lateOk : Bool := false
  qdepth : Nat := 1
  holder : Bool := false
  items : List Item := []
  fLast : Rat := 0
  nextJob : Nat := 1
  kv : Option KvMap := none
  video : Nat := 0
  rng : BitVec 16 := 1
  counters : List Nat := List.replicate 9 0
  close : Option Req := none
  closeAt : Nat := 0
  held : List (Nat × Nat) := []
  endCause : Option (Nat × Nat × Nat) := none
deriving DecidableEq, Repr

/-- A table of numbered contexts that are taken in the order of longest free (R192, R221): those never
used from `next` up, then `freed`, oldest first, each with its generation. -/
structure Pool where
  next : Nat := 0
  freed : List (Nat × Nat) := []
deriving DecidableEq, Repr

/-- The modes of Table 18-2. -/
inductive PlanMode where
  | stripe | column | direct
deriving DecidableEq, Repr

/-- The plan of one column slice of a CONV or TCONV (R349, R350): its first output column and width, the mode, the output columns
of a column tile (the slice's in the other modes) and the output rows of a stripe. -/
structure Plan where
  first : Nat
  width : Nat
  mode : PlanMode
  tile : Nat
  rows : Nat
deriving DecidableEq, Repr

/-- A dispatched descriptor (R196): its half-plains (none while it is pre-empted), the stamp it last took
them, the time it has held them, its save slots as half-plain, slot number and content (R203), the seed it took at its
first dispatch (R283), and whether its operation has been carried out. `desc` and `tens` are the descriptor and its tensor
descriptors by address, as the reread at dispatch found them (R190). -/
structure Run where
  s : Nat
  d : Nat
  part : Nat
  op : Nat
  hps : List Nat
  since : Nat
  ran : Nat := 0
  base : Rat := 0
  saved : List (Nat × Nat × Nat) := []
  desc : Block := 0
  tens : List (Nat × Block) := []
  marked : Bool := false
  seed : Nat := 0
  done : Bool := false
  asked : Bool := false
  plan : List Plan := []
  cuts : List Nat := []
deriving DecidableEq, Repr

/-- A master of chapter 11: its kind (0 DMA, 1 load/store, 2 Pass, 3 PCIe), its half-plain, port or function, the 4-bit epoch of
its tags, and the stamp of a reset whose tags have not all retired (R233, R234). -/
structure Master where
  kind : Nat
  unit : Nat
  epoch : Nat := 0
  resetAt : Option Nat := none
deriving DecidableEq, Repr

/-- The stream scheduler: the last multiple of 10,000 ns at which queued jobs were
checked (R200), dispatched descriptors, the masters that have been reset, the correction factors of R198 by
(partition, OP), the calibrated costs and the best-effort rate. -/
structure Sched where
  recheck : Nat := 0
  runs : List Run := []
  masters : List Master := []
  alpha : List ((Nat × Nat) × Rat) := []
  costs : List Cost := []
  beRate : Nat := 1
deriving DecidableEq, Repr

/-! ### Partitions and synchronisation objects (11) -/

inductive PartState where
  | ready | resetting | destroying
deriving DecidableEq, Repr

/-- A partition (R212). `step` is the step of Table 11-1 under way, 0 when none. -/
structure Part where
  exist : Bool := false
  cfg : PartCfg := {}
  state : PartState := .ready
  step : Nat := 0
  resetAt : Nat := 0
  acctCount : Bool := false
  totals : List Nat := List.replicate 9 0
  held : Nat := 0
  busy : Bool := false
  keyEpoch : Nat := 0
  createReq : Option Req := none
  resetReqs : List Req := []
  destroyReqs : List Req := []
  scrub : List Nat := []
  destroyAfter : Bool := false
  stopTdi : Bool := false
deriving DecidableEq, Repr

/-- A wait queued at a sync object, in arrival order (R183, R222). `tag` names the remote request. -/
structure Waiter where
  owner : Owner
  value : Nat := 0
  tag : Nat := 0
deriving DecidableEq, Repr

/-- A sync object (R221 to R229). `typ` is 0 LOCK, 1 SEM, 2 BARRIER, 3 EVENT; `state` 0 NORMAL,
1 ABANDONED, 2 BROKEN. -/
structure SyncObj where
  index : Nat
  gen : Nat
  part : Nat
  typ : Nat
  count : Nat := 0
  participants : Nat := 0
  state : Nat := 0
  holder : Option Owner := none
  waiters : List Waiter := []
  arrivals : List Owner := []
deriving DecidableEq, Repr

/-- The sync hardware: objects and free table (R221). -/
structure Sync where
  objs : List SyncObj := []
  free : Pool := {}
deriving DecidableEq, Repr

/-! ### Memory and Basins (12) -/

/-- A store made by the command that is running: one byte, or zero over a range of keys. -/
inductive MemOp where
  | put (a : Nat) (b : Byte)
  | zero (lo hi : Nat)
deriving DecidableEq, Repr

/-- An allocation of MEM_ALLOC (R242): partition, local address, bytes. -/
structure Alloc where
  part : Nat
  base : Nat
  size : Nat
deriving DecidableEq, Repr

/-- An operand panel that the DMA engine has written into the plain store of a half-plain (R289): of operand A or B, its store lines
from line 0 on, each with the reduction operands that its 128 lanes hold. -/
structure Panel where
  half : Nat
  b : Bool
  lines : List (List (List Val))
deriving DecidableEq, Repr

/-- Memory by canonical key (see Memory.lean). `cells` are the bytes that are not zero, addresses rising;
`ops` the running command's stores, newest first, empty between commands. `poison` are poisoned granules,
`rekeyed` key ranges whose key was rotated (R255) with the rotation's number; frames by key / 4096, those
under scrub (R215) as ranges. `panels` are the operand panels in the plain stores, which take no named bytes of them (R289; log
entry 159). -/
structure Memory where
  cells : List Host.Cell := []
  ops : List MemOp := []
  poison : List Nat := []
  allocs : List Alloc := []
  filled : List Nat := []
  retired : List Nat := []
  retireOnFree : List Nat := []
  scrubbing : List (Nat × Nat) := []
  rekeyed : List (Nat × Nat × Nat) := []
  rotations : Nat := 0
  live : List Nat := [0, 1, 2, 3, 4, 5, 6, 7]
  panels : List Panel := []
deriving DecidableEq, Repr

/-- Basin states (Table 5-6). -/
inductive BasinState where
  | reset | init | repair | lane | train | test | ready | drain | failed
deriving DecidableEq, Repr

/-- A Basin: state machine (R94), retrain queue (R95, R98), thermal state (R256) with the stamps its
conditions count from, arbitration of the present window (R245, R246), patrol and on-die reports (R253). `tempOnly` says that the
queued retrain stands for a temperature move alone, `deferred` that R258 has deferred it. `reportAt` and `readAt` are the stamps of
the last reads of the on-die reports and of the temperature (R253, R235). `soft` are the rows under soft repair (R90). -/
structure Basin where
  state : BasinState := .reset
  temp : Int := 40
  trainTemp : Int := 40
  attempts : Nat := 0
  queued : Option Nat := none
  tempOnly : Bool := false
  deferred : Bool := false
  retraining : Bool := false
  waitReqs : List Req := []
  repairReqs : List (Req × Nat × Nat) := []
  repairing : Option (Req × Nat) := none
  doubled : Bool := false
  throttled : Bool := false
  psr : Bool := false
  psrDue : Bool := false
  withdrawn : Bool := false
  below82 : Option Nat := none
  below92 : Option Nat := none
  below95 : Option Nat := none
  below80 : Option Nat := none
  queue : List BasinReq := []
  seq : Nat := 0
  cap : Nat := 60
  lcr : Nat := 0
  mnt : Nat := 0
  used : Nat := 0
  patrolDone : Bool := false
  patrol : Nat := 0
  patrolStart : Nat := 0
  reports : List Nat := []
  reportAt : Option Nat := none
  readAt : Option Nat := none
  deficit : List (Nat × Nat) := []
  soft : List Nat := []
deriving DecidableEq, Repr

/-! ### The guarantee ledger (13) -/

/-- A reservation (R261). `part` is its partition, `stream` the holder's handle or 0. Factors and tokens
are per direction. `scrub` marks a reset-scrub holding (R218). -/
structure Resv where
  id : Nat
  kind : Nat
  index : Nat
  rank : Nat
  amount : Nat
  part : Nat
  stream : Nat := 0
  committed : Nat := 0
  inEffect : Bool := false
  released : Option Nat := none
  factors : List Nat := [32768, 32768]
  tokens : List Nat := [0, 0]
  scrub : Bool := false
deriving DecidableEq, Repr

/-- One resource in one direction (Table 13-1): its D before and after the last change and that change's
stamp, OVERCOMMITTED, whether best effort is squeezed (R265, R268), window starts since entry, and the start of the dwell of R268. -/
structure Resource where
  kind : Nat
  index : Nat
  dir : Nat
  dPrev : Nat := 0
  dNow : Nat := 0
  dStamp : Nat := 0
  overc : Bool := false
  squeezed : Bool := false
  windows : Nat := 0
  okSince : Option Nat := none
deriving DecidableEq, Repr

/-- The ledger. `window` is one more than the number of the 1 µs window last begun (R34), 0 before the first. -/
structure Ledger where
  resvs : List Resv := []
  resources : List Resource := []
  window : Nat := 0
deriving DecidableEq, Repr

/-! ### KV pools (17) -/

/-- A KV pool (R321 to R323): its number is its place in the list. -/
structure KvPool where
  exist : Bool := false
  gen : Nat := 0
  part : Nat := 0
  page : Nat := 0
  format : Nat := 0
  heads : Nat := 1
  dim : Nat := 16
  pages : Nat := 0
  backing : Nat := 0
  freeHead : Nat := 0
  freeCount : Nat := 0
  lost : Bool := false
deriving DecidableEq, Repr

/-! ### Pass ports, the Valley and collectives (19) -/

/-- Port states (Table 5-7). -/
inductive PortState where
  | disabled | detect | equalise | fecLock | coenoInit | up | failed
deriving DecidableEq, Repr

/-- A Pass port: training (R96), the Coeno link (R354 to R359), drift and idle supervision (R22, R372).
`cand` is the candidate set of R96, 0 the full width; lanes are bit masks; per-VC lists are in the order REQ,
RSP, COLL, MGMT. `tx` holds what is left of the message whose flits are
under way, `unacked` the messages whose last flit (its SEQ) is not acknowledged. `echo` is the last heartbeat received: its TX and this
chip's stamp of it; `wire` the bytes of the flit sent last (R354). `keySession` names the session whose keys the slots hold, 0 where
they are zeroised or none were derived (R416, Table 21-5). -/
structure Port where
  state : PortState := .disabled
  width : Nat := 0
  cand : Nat := 0
  tries : Nat := 0
  saved : Bool := false
  full : Bool := true
  queued : Option Nat := none
  training : Bool := false
  retrain : Bool := false
  waitReqs : List Req := []
  peer : Nat := 0
  authFailed : Bool := false
  budgetHit : Bool := false
  budgetRetrain : Option Nat := none
  corrected : Nat := 0
  txSeq : Nat := 0
  txAcked : Nat := 4095
  replay : List Flit := []
  replayFrom : Option Nat := none
  flitReplays : Nat := 0
  replays : List Nat := []
  rxNext : Nat := 0
  nakDue : Bool := false
  credits : List Nat := [192, 192, 256, 16]
  owed : List Nat := [0, 0, 0, 0]
  keyPhase : Bool := false
  keyCount : Nat := 0
  keyNumber : Nat := 0
  keySession : Nat := 0
  txq : List Msg := []
  tx : List (List Byte) := [[], [], [], []]
  unacked : List (Option Nat × Msg) := []
  deficit : List (Nat × Nat) := []
  rx : List (List Byte) := [[], [], [], []]
  lastFlit : Nat := 0
  echo : Option (Nat × Nat) := none
  peerRoot : Nat := 0
  peerHops : Nat := 0
  peerState : Nat := 0
  otherValley : Bool := false
  wire : List Byte := []
deriving DecidableEq, Repr

/-- A route (R367): its ports, HOPS limit, whether a command set it, and since when none is valid and UP. -/
structure Route where
  dest : Nat
  ports : List Nat
  hops : Nat := 16
  byCommand : Bool := false
  downSince : Option Nat := none
  loopAt : Option Nat := none
deriving DecidableEq, Repr

/-- A member of the Valley (R366, R370). -/
structure Member where
  chip : Nat
  serial : Nat := 0
  root : Bool := false
deriving DecidableEq, Repr

/-- A request of this chip that is outstanding (R361, R363): the message, when its timer started, the
expiries so far, and the job it serves: stream, descriptor. `unit` is the half-plain whose DMA engine holds its tag, `epoch` the
tag's; `tomb` is the stamp at which the tag was tombstoned (R233). `stale` says that a SYNC_WAIT has been satisfied since the
request went out, so that its bytes may miss writes that the wait's job must see (R184). -/
structure Outstanding where
  msg : Msg
  since : Nat
  expiries : Nat := 0
  resendAt : Option Nat := none
  job : Option (Nat × Nat) := none
  unit : Option Nat := none
  epoch : Nat := 0
  tomb : Option Nat := none
  stale : Bool := false
deriving DecidableEq, Repr

/-- An entry of the dedup table (R362). -/
structure Dedup where
  src : Nat
  tag : Nat
  response : Msg
  made : Nat
deriving DecidableEq, Repr

/-- The Valley as this chip knows it (R366 to R374). `selfRsp` are refusals of requests that never left,
`queued` requests that wait for a tag (R361), `heldReqs` requests this chip holds with the stamp of the last
HOLD. `views` are bytes of remote memory this chip has read or written and that nothing it knows of has
changed since, by chip and local address. `left` are the ports on which a
LEAVE went out before a WARM or an entry to STBY dropped the links (R74, R226). -/
structure Valley where
  joined : Bool := false
  joining : List Req := []
  timed : Bool := false
  id : Nat := 0
  root : Bool := false
  expelled : Bool := false
  members : List Member := []
  lost : List (Nat × Nat) := []
  routes : List Route := []
  dedup : List Dedup := []
  outstanding : List Outstanding := []
  heldReqs : List (Msg × Nat) := []
  nextTag : List (Nat × Nat) := []
  selfRsp : List Msg := []
  queued : List (Msg × Option (Nat × Nat)) := []
  views : List ((Nat × Nat) × Byte) := []
  waitingJoin : List Nat := []
  left : List Nat := []
  beatAt : Option Nat := none
deriving DecidableEq, Repr

/-- A COLL that has been issued (R377 to R383): stream, descriptor, sequence, its start once one of the 32
places is its own, the extensions of SLOW in ms, and the parameters that the members exchange. -/
structure Collective where
  s : Nat
  d : Nat
  seq : Nat
  started : Option Nat := none
  ext : Nat := 0
  params : Nat := 0
deriving DecidableEq, Repr

/-- A chunk piece received: sequence, rank, parameters, offset and bytes. -/
structure Piece where
  seq : Nat
  rank : Nat
  params : Nat
  off : Nat
  data : List Byte
deriving DecidableEq, Repr

/-- A collective group (R375). `aborted` names a chip and a reason; `slow` keeps the extensions of sequences
that have not started here (R381). -/
structure Group where
  index : Nat
  part : Nat
  id : Nat
  members : List Nat
  rank : Nat
  timeout : Nat := 50
  readyFrom : List Nat := []
  aborted : Option (Nat × Nat) := none
  nextSeq : Nat := 1
  colls : List Collective := []
  staged : List Piece := []
  slow : List (Nat × Nat) := []
  destroy : List Req := []
deriving DecidableEq, Repr

/-- The collective engine: groups, and READYs that came before their group: partition, GROUP_ID, chip. -/
structure Coll where
  groups : List Group := []
  early : List (Nat × Nat × Nat) := []
deriving DecidableEq, Repr

/-! ### The media complex (20) -/

/-- One layer of a video output context (R390 to R392), as set and as the frame latched last saw it. `published` is
content that waits for a latch: ready stamp, descriptor address (0 keeps the current one), stream that composed it. -/
structure Layer where
  on : Bool := false
  policy : Nat := 0
  grace : Nat := 0
  source : Nat := 0
  producer : Nat := 0
  buffer : Nat := 0
  x : Nat := 0
  y : Nat := 0
  w : Nat := 0
  h : Nat := 0
  alpha : Nat := 0
  published : List (Nat × Nat × Nat) := []
  current : Option Nat := none
  stale : Nat := 0
  inRun : Bool := false
  holding : Bool := false
  shown : Bool := false
deriving DecidableEq, Repr

/-- A region of interest (R398). -/
structure Roi where
  on : Bool := false
  qp : Int := 0
  x : Nat := 0
  y : Nat := 0
  w : Nat := 0
  h : Nat := 0
deriving DecidableEq, Repr

/-- A frame of a video output context: its latch stamp, k, the state of its way (0 waiting for HOLD, 1 for
the compositor, 2 composed, 3 being encoded), and whether it is a key picture. `refresh` are the CTU columns intra-coded by the sweep,
from and to (R396), `qp` the quantiser of each CTU (R398), both set as the encode begins. -/
structure Frame where
  stamp : Nat
  k : Nat
  stage : Nat := 0
  key : Bool := false
  refresh : Nat × Nat := (0, 0)
  qp : List Int := []
deriving DecidableEq, Repr

/-- A video output context (R386 to R401). `coded` is the FRAME of the picture encoded last, the only one that the next may
reference (R395); `refAt` is the reference buffer, 0 or 1, that the next reconstructed picture is written into (R388). Settings that wait for the next latch stand in `nextLayers` and
`nextRois` with the stamps that R172 compares. -/
structure Enc where
  index : Nat
  part : Nat
  av1 : Bool
  ten : Bool
  split : Nat
  cores : List Nat
  width : Nat
  height : Nat
  fps : Nat
  bitrate : Nat
  irPeriod : Nat
  resv : List Nat
  buffer : Nat
  openAt : Nat
  lastLatch : Option Nat := none
  layers : List Layer := List.replicate 8 {}
  nextLayers : List (Nat × Nat × Layer) := []
  rois : List Roi := List.replicate 8 {}
  nextRois : List (Nat × Nat × Roi) := []
  keyAt : Option Nat := none
  keyDue : Bool := true
  frame : Option Frame := none
  waiting : Option Frame := none
  rowsLeft : List Nat := []
  sweep : Nat := 0
  coded : Option Nat := none
  refAt : Nat := 0
  skips : Nat := 0
  skipRun : Bool := false
  skipBefore : Bool := false
  coreLost : Bool := false
  closing : Option Req := none
deriving DecidableEq, Repr

/-- A frame decoded and not output yet: its place in output order, size, bit depth, the PTS of the slot in which it began, its
decode-end stamp and the samples of its planes (R402, R403). -/
structure HeldFrame where
  order : Nat
  w : Nat
  h : Nat
  ten : Bool
  pts : Nat
  ended : Nat
  luma : List (BitVec 16)
  chroma : List (BitVec 16)
deriving DecidableEq, Repr

/-- A decoder context (R386, R402 to R404). `slots` are the slots it holds, oldest first: window, slot, stamp of arrival; `headUsed`
counts the bytes consumed of the first, `bytes` those since open or flush; `began` is the PTS of the slot in which the frame under way
began, `held` are the frames decoded and not output yet. `pos` is the ring position of the next output buffer, `latest` the stamp and
address of the last one written. -/
structure Dec where
  index : Nat
  part : Nat
  codec : Nat
  core : Nat
  maxW : Nat
  maxH : Nat
  outAddr : Nat
  outFrames : Nat
  resv : List Nat
  stopped : Bool := false
  decoded : Nat := 0
  outputs : Nat := 0
  bytes : Nat := 0
  pos : Nat := 0
  seenRap : Bool := false
  slots : List (Nat × Nat × Nat) := []
  headUsed : Nat := 0
  began : Option Nat := none
  held : List HeldFrame := []
  latest : Option (Nat × Nat) := none
deriving DecidableEq, Repr

/-- A media core (R387): the row under way, as context (decoders from 2,048), and its balances by
reservation, in tenths of a nanosecond. -/
structure Core where
  row : Option Nat := none
  void : Bool := false
  balances : List (Nat × Int) := []
deriving DecidableEq, Repr

structure Media where
  encs : List Enc := []
  decs : List Dec := []
  cores : List Core := List.replicate 16 {}
deriving DecidableEq, Repr

/-! ### Security (21) and firmware (22) -/

/-- Solram and the OTP (R405 to R422). `groups` are the four lifecycle groups of R411, `keys` the ids of
the key slots that hold a key: 0 to 31 partitions, 32 shared, 33 suspend, 34 identity, 35 alias. The
challenge is its bytes and its issue stamp. `unlock` lists grants of INVASIVE under way (R422), `lifecycleReq` is the transition
under way: its command, TO and the owner fields (R413). `rmaErased` says that the first COLD in RMA has erased the defect
record (R414), `cpHash` the hash of the CP image that Solram keeps in the AON domain through STBY (R72). -/
structure Sec where
  groups : List (BitVec 16) := [0, 0, 0, 0]
  lifecycle : Nat := 0
  rootSecret : Bool := true
  serial : BitVec 64 := 0
  ownerPub : List Byte := []
  ownerDebug : List Byte := []
  selfTest : Bool := false
  error : Bool := false
  level : Nat := 0
  challenge : Option (List Byte × Nat) := none
  keys : List Nat := []
  drbgCount : Nat := 0
  lifecycleSet : Bool := false
  unlock : List Req := []
  lifecycleReq : Option (Req × Nat × List Byte × List Byte) := none
  measuredSolram : List Byte := []
  measuredFw : List Byte := []
  cpHash : List Byte := []
  rmaErased : Bool := false
deriving DecidableEq, Repr

/-- A firmware slot (Table 22-2). -/
inductive SlotState where
  | empty | incomplete | downloaded | verified | invalid | pending | trial | active | fallback
deriving DecidableEq, Repr

/-- Firmware (R424 to R440): running slot, slot states, high-water mark and persisted mark of the inactive
slot with how far it has been written (which a download that goes on after a CPR has not lost, R439), Solram's VERIFIED mark, OTP anti-rollback entries, and the FW command under way with those behind it. -/
structure Fw where
  running : Nat := 0
  slots : List SlotState := [.empty, .empty]
  hwm : Nat := 4096
  written : Nat := 4096
  persisted : Nat := 4096
  mark : Option (List Byte) := none
  otp : List (BitVec 32) := List.replicate 128 0
  version : Nat := 0
  busy : Option Req := none
  verify : Option Req := none
  waiting : List Req := []
  fallback : Option (Nat × Nat) := none
  unbootable : Option Nat := none
  released : Bool := false
deriving DecidableEq, Repr

/-! ### The whole machine -/

/-- The state of the block. `flash` lists the flash bytes that are not 0xFF; `host` the bytes the device
has written to Ford mirrors, by requester and address (R120); `readData` is what the last read or answer returned; `fresh`
counts the free values taken and is the model's own; `pending` is the queue of waiting commands. -/
structure State where
  now : Nat := 0
  time : Time := {}
  clk : Clk := {}
  rails : List Rail := List.replicate 16 {}
  sup : Sup := {}
  plains : List Plain := List.replicate 16 {}
  power : Power := {}
  boot : Boot := {}
  flash : List Host.Cell := []
  prof : Profile := {}
  fns : List Fn := List.replicate 33 {}
  hif : Hif := {}
  mbx : List Mailbox := List.replicate 33 {}
  cp : Cp := {}
  logs : Logs := {}
  dbg : Dbg := {}
  parts : List Part := List.replicate 32 {}
  destroyed : List (Nat × Req) := []
  streams : List Stream := []
  streamFree : Pool := {}
  sched : Sched := {}
  sync : Sync := {}
  mem : Memory := {}
  basins : List Basin := List.replicate 8 {}
  ledger : Ledger := {}
  kv : List KvPool := List.replicate 8 {}
  ports : List Port := List.replicate 24 {}
  valley : Valley := {}
  coll : Coll := {}
  media : Media := {}
  sec : Sec := {}
  fw : Fw := {}
  host : List Host.Cell := []
  readData : Nat := 0
  fresh : Nat := 0
  pending : List Instr := []
deriving DecidableEq, Repr

/-! ### Reset -/

/-- Table 3-1 and Table 3-3: the built-in entry of a channel. ON_TIMEOUT, OFF_WAIT, PMBus and AVS fields are
not in Table 3-3 (log entry 14). -/
def RailCfg.default (ch : Nat) : RailCfg :=
  match ch with
  | 0 => { setpoint := 720 }
  | 1 => { window := true, setpoint := 360, uv := 12, ov := 12 }
  | 2 => { window := true, setpoint := 320, uv := 14, ov := 14, filter := 19 }
  | 3 | 4 | 5 | 6 => { window := true, avs := true, setpoint := 300, filter := 19, avsSel := ch - 3 }
  | 7 => { setpoint := 720 }
  | 8 => { setpoint := 420 }
  | 9 => { setpoint := 300 }
  | 10 => { setpoint := 480 }
  | 11 => { window := true, setpoint := 300, uv := 12, ov := 12 }
  | 12 => { setpoint := 480 }
  | 13 => { setpoint := 300 }
  | _ => { used := false }

/-- The built-in default profile (R104). -/
def Profile.default : Profile :=
  { rails := (List.range 16).map RailCfg.default, parts := List.replicate 32 {} }

/-- The resources of Table 13-1: eight Basins, both directions of 24 ports, 16 media cores, both directions
of the link. -/
def Ledger.resources0 : List Resource :=
  (List.range 8).map (fun i => { kind := 0, index := i, dir := 0 }) ++
  (List.range 24).flatMap (fun i => [{ kind := 1, index := i, dir := 0 }, { kind := 1, index := i, dir := 1 }]) ++
  (List.range 16).map (fun i => { kind := 2, index := i, dir := 0 }) ++
  [{ kind := 3, index := 0, dir := 0 }, { kind := 3, index := 0, dir := 1 }]

/-- A function right after reset (R121, R459): the PF is present, with 64 vectors; a VF has 32. -/
def Fn.atReset (f : Nat) : Fn :=
  { enabled := f == 0, vecs := List.replicate (if f == 0 then 64 else 32) {} }

/-- The machine as the AON domain leaves COLD reset with VDD_AON good: RAIL_EN[0] has risen and VDD_IO18
ramps with the fixed values of R47; device time is 0 (R23); everything else is off (Table 3-4, Table 5-1). -/
def State.reset : State :=
  { rails := (List.range 16).map fun ch =>
      if ch = 0 then { cfg := RailCfg.default 0, target := 720, enabled := true, state := .ramping }
      else { cfg := RailCfg.default ch, target := (RailCfg.default ch).setpoint },
    prof := Profile.default,
    fns := (List.range 33).map Fn.atReset,
    ledger := { resources := Ledger.resources0 } }

end Sys2Proof.Machine
end

