-- ==== Sys2Proof/Machine/Memory.lean ====
section
/-! DEFINITION. Memory by canonical key: one byte read and written, ranges zeroed, keys rotated, granules poisoned, and the commit of a command's stores into the canonical list. A key is the affine local address of a Basin byte (R239), or the local address of a store or line-buffer byte (Table 12-2). -/
namespace Sys2Proof.Machine

/-- The canonical form: addresses strictly rising and no byte listed that is zero, the value an unlisted
byte reads as (R94, R242). -/
def cellsWf : List Host.Cell → Bool
  | [] => true
  | [c] => c.2 != 0
  | c :: d :: r => c.2 != 0 && c.1 < d.1 && cellsWf (d :: r)

/-- The memory list is canonical and no store of a command is left over. -/
def Memory.wf (m : Memory) : Bool := cellsWf m.cells && m.ops.isEmpty

/-- One store of a command applied to the list. -/
def MemOp.apply (l : List Host.Cell) : MemOp → List Host.Cell
  | .put a b => cellPut 0 l a b
  | .zero lo hi => cellClear l lo hi

/-- The stores of a command, newest first, applied oldest first. -/
def commitOps (l : List Host.Cell) : List MemOp → List Host.Cell
  | [] => l
  | o :: r => o.apply (commitOps l r)

/-- What the running command's stores say of a byte, the newest first. -/
def opsAt : List MemOp → Nat → Option Byte
  | [], _ => none
  | .put a b :: r, k => if a = k then some b else opsAt r k
  | .zero lo hi :: r, k => if lo ≤ k && k < hi then some 0 else opsAt r k

/-- The rotation, if any, that made a key's old contents unreadable (R255). -/
def rotationOf : List (Nat × Nat × Nat) → Nat → Option Nat
  | [], _ => none
  | (lo, hi, n) :: r, k => if lo ≤ k && k < hi then some n else rotationOf r k

/-- One byte of memory. Bytes under a rotated key are a free value (log entry 2); unlisted bytes read zero. -/
def Memory.get (m : Memory) (k : Nat) : Byte :=
  match rotationOf m.rekeyed k with
  | some n => Config.rotatedByte n k
  | none => (opsAt m.ops k).getD ((cellAt m.cells k).getD 0)

/-- The rotated ranges without `[lo, hi)`. -/
def cutRanges (lo hi : Nat) : List (Nat × Nat × Nat) → List (Nat × Nat × Nat)
  | [] => []
  | (a, b, n) :: r =>
    (if hi ≤ a || b ≤ lo then [(a, b, n)]
     else (if a < lo then [(a, lo, n)] else []) ++ (if hi < b then [(hi, b, n)] else []))
    ++ cutRanges lo hi r

/-- A granule under a rotated key brought to plain bytes, as they read, before a store into it. -/
def Memory.settle (m : Memory) (k : Nat) : Memory :=
  match rotationOf m.rekeyed k with
  | none => m
  | some _ =>
    let g := k / 64 * 64
    { m with
      ops := (List.range 64).map (fun i => MemOp.put (g + i) (m.get (g + i))) ++ m.ops,
      rekeyed := cutRanges g (g + 64) m.rekeyed }

/-- A rising list with an element added once. -/
def insertNat (x : Nat) : List Nat → List Nat
  | [] => [x]
  | y :: r => if x < y then x :: y :: r else if x = y then y :: r else y :: insertNat x r

/-- First key of the affine view; keys below it are stores and line buffers. -/
def affineBase : Nat := 0x8000000000

/-- One byte stored. A store into a Basin frame clears the frame's ZERO bit (Table 12-3). -/
def Memory.put (m : Memory) (k : Nat) (v : Byte) : Memory :=
  let m := m.settle k
  { m with
    ops := .put k v :: m.ops,
    filled := if affineBase ≤ k then insertNat (k / 4096) m.filled else m.filled }

/-- A key range written to zero; its poison goes with it. -/
def Memory.zero (m : Memory) (lo hi : Nat) : Memory :=
  { m with
    ops := .zero lo hi :: m.ops,
    rekeyed := cutRanges lo hi m.rekeyed,
    poison := m.poison.filter fun g => g * 64 + 64 ≤ lo || hi ≤ g * 64,
    filled := m.filled.filter fun f => f * 4096 + 4096 ≤ lo || hi ≤ f * 4096 }

/-- The key of a range replaced: its old contents become unreadable (R218, R255). -/
def Memory.rotate (m : Memory) (lo hi : Nat) : Memory :=
  { m with
    rekeyed := (lo, hi, m.rotations) :: cutRanges lo hi m.rekeyed,
    rotations := m.rotations + 1 }

/-- The key of a range of frames replaced. A frame with ZERO = 1 holds nothing under any key, and goes on reading zero (R241). -/
def Memory.rotateFilled (m : Memory) (lo hi : Nat) : Memory :=
  (m.filled.filter fun f => lo ≤ f * 4096 && f * 4096 < hi).foldl (fun (m : Memory) f => m.rotate (f * 4096) (f * 4096 + 4096)) m

/-- A granule marked poisoned, or cleared of it (R251). -/
def Memory.mark (m : Memory) (k : Nat) (p : Bool) : Memory :=
  { m with poison := if p then insertNat (k / 64) m.poison else m.poison.filter (· != k / 64) }

/-- Whether the granule of a key is poisoned. -/
def Memory.poisoned (m : Memory) (k : Nat) : Bool := m.poison.contains (k / 64)

end Sys2Proof.Machine
end

