-- ==== Sys2Proof/Machine/Ops.lean ====
section
/-! DEFINITION. The named operations every family uses: running a command, registers of numbered units, MSI-X, events, the logs, the alert causes and free values. -/
namespace Sys2Proof.Machine

/-! ### Running a command -/

/-- The end of a command: its stores go into the canonical memory list, and the queue is as it was. -/
def finish (s t : State) : State :=
  { t with mem := { t.mem with cells := commitOps s.mem.cells t.mem.ops, ops := [] }, pending := s.pending }

/-- One of the numbers that are free, as the device chooses (log entry 76). -/
def pickFree (now : Nat) (free : List Nat) : Nat := free.getD (Config.idChoice now free.length % free.length) 0

/-- A command whose hardware is powered takes effect; one whose hardware is not leaves the state as it is
(log entry 16). -/
def run (on : State → Bool) (s : State) (f : State → State) : Host.Outcome State Fault Refusal :=
  .next (if on s then finish s (f s) else s)

/-- The AON domain: powered whenever VDD_AON is (R36). -/
def State.aon (s : State) : Bool := s.sup.aonUp

/-- Every state: rows of the supply itself and of the board's pins, which need no power. -/
def State.always (_ : State) : Bool := true

/-- The domains outside AON are powered and out of POR: ACTIVE or QSC with power good (Table 3-6). -/
def State.core (s : State) : Bool :=
  s.sup.powerGood && (s.power.chip == .active || s.power.chip == .qsc) &&
  (match s.sup.seq with
    | .down _ _ => false
    | _ => true)

/-- `core`, or STBY, in which the keeper answers (R73). -/
def State.keeper (s : State) : Bool :=
  s.sup.powerGood && (s.power.chip == .active || s.power.chip == .qsc || s.power.chip == .stby)

/-! ### Numbered units -/

def State.mb (s : State) (m : Nat) : Mailbox := s.mbx.getD m {}
def State.updMb (s : State) (m : Nat) (f : Mailbox → Mailbox) : State := { s with mbx := updAt s.mbx m f }
def State.fn (s : State) (f : Nat) : Fn := s.fns.getD f {}
def State.updFn (s : State) (i : Nat) (f : Fn → Fn) : State := { s with fns := updAt s.fns i f }

/-- Whether a request to a VF's BARs is refused under TDISP: its TDI is CONFIG_LOCKED or RUN, and the request does not arrive on
the VF's IDE stream (R123). -/
def State.offStream (s : State) (m : Nat) (ide : Bool) : Bool := !ide && ((s.fn m).tdi == 1 || (s.fn m).tdi == 2)

/-- A request answered with Unsupported Request: noted in the function's AER; a read finds no data (log entry 153). -/
def State.unsupported (s : State) (m : Nat) (read : Bool) : State :=
  let s := s.updFn m fun x => { x with urLogged := true }
  if read then { s with readData := 2 ^ 64 - 1 } else s

/-- A command that is a request to a function's BARs; `ide` says that it arrives on the function's IDE stream (R123). -/
def barRun (on : State → Bool) (m : Nat) (ide read : Bool) (s : State) (f : State → State) : Host.Outcome State Fault Refusal :=
  run on s fun s => if s.offStream m ide then s.unsupported m read else f s
def State.plain (s : State) (p : Nat) : Plain := s.plains.getD p {}
def State.updPlain (s : State) (p : Nat) (f : Plain → Plain) : State := { s with plains := updAt s.plains p f }
def State.rail (s : State) (c : Nat) : Rail := s.rails.getD c {}
def State.updRail (s : State) (c : Nat) (f : Rail → Rail) : State := { s with rails := updAt s.rails c f }
def State.part (s : State) (p : Nat) : Part := s.parts.getD p {}
def State.updPart (s : State) (p : Nat) (f : Part → Part) : State := { s with parts := updAt s.parts p f }
def State.basin (s : State) (b : Nat) : Basin := s.basins.getD b {}
def State.updBasin (s : State) (b : Nat) (f : Basin → Basin) : State := { s with basins := updAt s.basins b f }
def State.port (s : State) (p : Nat) : Port := s.ports.getD p {}
def State.updPort (s : State) (p : Nat) (f : Port → Port) : State := { s with ports := updAt s.ports p f }
def State.pool (s : State) (k : Nat) : KvPool := s.kv.getD k {}
def State.updPool (s : State) (k : Nat) (f : KvPool → KvPool) : State := { s with kv := updAt s.kv k f }
def State.window (s : State) (f w : Nat) : Window := (s.fn f).windows.getD w {}
def State.updWindow (s : State) (f w : Nat) (g : Window → Window) : State :=
  s.updFn f fun x => { x with windows := updAt x.windows w g }

/-- The listed stream context of an index. -/
def State.stream? (s : State) (i : Nat) : Option Stream := s.streams.find? (·.index == i)
/-- A stream context changed. -/
def State.updStream (s : State) (i : Nat) (f : Stream → Stream) : State :=
  { s with streams := s.streams.map fun x => if x.index == i then f x else x }
/-- The listed sync object of an index. -/
def State.sobj? (s : State) (i : Nat) : Option SyncObj := s.sync.objs.find? (·.index == i)
def State.updObj (s : State) (i : Nat) (f : SyncObj → SyncObj) : State :=
  { s with sync := { s.sync with objs := s.sync.objs.map fun x => if x.index == i then f x else x } }

/-- This chip's ID (R97). -/
def State.chip (s : State) : Nat := s.prof.chipId

/-! ### Handles (Table 7-3, R221, R476) -/

def hStream (index gen : Nat) : Nat := 1 * 2 ^ 28 + gen % 256 * 2 ^ 14 + index
def hSync (index gen : Nat) : Nat := 2 * 2 ^ 28 + gen % 256 * 2 ^ 10 + index
def hPool (n gen : Nat) : Nat := 3 * 2 ^ 28 + gen % 256 * 2 ^ 3 + n
def hMedia (o : Nat) : Nat := 4 * 2 ^ 28 + o
def hGroup (o : Nat) : Nat := 5 * 2 ^ 28 + o
def hPart (p : Nat) : Nat := 6 * 2 ^ 28 + p
def hWindow (w : Nat) : Nat := 7 * 2 ^ 28 + w
/-- TYPE and OBJECT of a handle. -/
def hType (h : Nat) : Nat := bits h 28 4
def hObj (h : Nat) : Nat := bits h 0 24

def Stream.handle (x : Stream) : Nat := hStream x.index x.gen
def SyncObj.handle (x : SyncObj) : Nat := hSync x.index x.gen

/-! ### Tables of contexts taken longest free first (R192, R221) -/

/-- Whether a context of a table of `n` is free. -/
def Pool.any (p : Pool) (n : Nat) : Bool := p.next < n || !p.freed.isEmpty
/-- The index and generation taken next, and the table without it. -/
def Pool.take (p : Pool) (n : Nat) : Nat × Nat × Pool :=
  if p.next < n then (p.next, 0, { p with next := p.next + 1 })
  else match p.freed with
    | [] => (0, 0, p)
    | (i, g) :: r => (i, g, { p with freed := r })
/-- An index given back under its next generation. -/
def Pool.give (p : Pool) (i gen : Nat) : Pool := { p with freed := p.freed ++ [(i, (gen + 1) % 256)] }

/-! ### Payloads and free values -/

/-- A 16-byte PAYLOAD from (byte, value) pieces. -/
def pay (l : List (Nat × Nat)) : Nat := l.foldl (fun a p => a + p.2 * 2 ^ (8 * p.1)) 0

/-- The next free value and the state past it (log entry 13). -/
def State.free (s : State) : Nat × State := (Config.freshBits s.fresh, { s with fresh := s.fresh + 1 })

/-! ### MSI-X (R121, R455) -/

/-- A message on a vector, or its pending bit while it is masked (R121). -/
def Vec.fire (v : Vec) : Vec := if v.masked then { v with pend := true } else { v with sent := v.sent + 1 }
def Fn.fire (x : Fn) (v : Nat) : Fn := { x with vecs := updAt x.vecs v Vec.fire }

/-- One signalling record counted under R455: the new coalescing state, and whether the message is due. -/
def Coal.note (c : Coal) (now : Nat) (final : Bool) : Coal × Bool :=
  let first := if c.since = 0 then now else c.first
  if final || c.count + 1 ≤ c.since + 1 then ({ c with since := 0, first := first }, true)
  else ({ c with since := c.since + 1, first := first }, false)

/-- A completion record signals on vector 0. -/
def Fn.noteCq (x : Fn) (now : Nat) : Fn :=
  let (c, due) := x.coalCq.note now false
  let x := { x with coalCq := c }
  if due then x.fire 0 else x

/-- An event record signals on vector 1; a final-class one at once. -/
def Fn.noteEq (x : Fn) (now : Nat) (final : Bool) : Fn :=
  let (c, due) := x.coalEq.note now final
  let x := { x with coalEq := c }
  if due then x.fire 1 else x

/-! ### Event rings (R143, R144) -/

/-- Entries of a ring of log2 size `n`. -/
def ringSize (n : Nat) : Nat := 2 ^ n

/-- Room in the event ring. -/
def Mailbox.eqRoom (b : Mailbox) : Bool := b.ready && b.eq.length < ringSize b.eqSize

/-- EVENT_STALL: a final-class event is held beyond the buffer of 512 (R144). -/
def Mailbox.stall (b : Mailbox) : Bool := 512 < b.hold.length

/-- An event written into the ring, stamped as it is written (R25), with the PHASE of its slot. -/
def Mailbox.writeEvent (b : Mailbox) (now : Nat) (e : Event) : Mailbox :=
  { b with
    eq := b.eq ++ [{ e with stamp := now, phase := b.eqCount / ringSize b.eqSize % 2 == 0 }],
    eqCount := b.eqCount + 1 }

/-- Waiting events written while there is room, an EV_EVENTS_LOST record first when one is due (R144). -/
def Mailbox.flush (now : Nat) : Nat → Mailbox → Mailbox
  | 0, b => b
  | n + 1, b =>
    if b.eqRoom then
      if b.lostDue ≠ 0 then
        Mailbox.flush now n { b.writeEvent now { code := EV.eventsLost, payload := b.lostDue } with lostDue := 0 }
      else match b.hold with
        | [] => b
        | e :: r => Mailbox.flush now n ({ b with hold := r }.writeEvent now e)
    else b

/-- A new event: written when nothing waits and there is room, else held; when the buffer is full, a
final-class event is held all the same and any other is dropped and counted (R144). -/
def Mailbox.post (b : Mailbox) (now : Nat) (e : Event) : Mailbox :=
  if b.eqRoom && b.hold.isEmpty && b.lostDue == 0 then b.writeEvent now e
  else if b.hold.length < 512 || e.final then { b with hold := b.hold ++ [e] }
  else { b with lost := sat 32 (b.lost + 1), lostDue := b.lostDue + 1 }

/-- Signals of the records written since the mailbox was `b`. -/
def State.signalEq (s : State) (m : Nat) (b : Mailbox) : State :=
  let b' := s.mb m
  (b'.eq.drop (b'.eq.length - (b'.eqCount - b.eqCount))).foldl
    (fun s e => s.updFn m (fun x => x.noteEq s.now e.final)) s

/-- An event on one ring. -/
def State.post (s : State) (m : Nat) (e : Event) : State :=
  (s.updMb m (fun b => b.post s.now e)).signalEq m (s.mb m)

/-! ### The logs (R445 to R448) -/

/-- The bytes of a log record (Table 23-5), CRC included. -/
def LogRec.bytes (r : LogRec) : List Byte :=
  let l := leBytes 2 r.code ++ leBytes 1 r.cls ++ leBytes 1 (sat 8 r.count) ++ leBytes 4 r.source ++
    leBytes 8 r.stamp ++ leBytes 8 r.payload ++ leBytes 4 r.boot
  l ++ leBytes 4 (crc32c l)

/-- Flash offset of the crash log (Table 5-3). -/
def crashBase : Nat := 0x60000

/-- A record appended to the crash log, the next sector erased as a sector is begun (R448). Flash is out of
reach unless VDD_IO18 is on and was judged good (R47). -/
def State.crash (s : State) (r : LogRec) : State :=
  if !(s.rail 0).enabled || !((s.rail 0).state == .good || (s.rail 0).state == .fault) then s else
  let n := s.logs.crashNext % 8192
  let k := (n / 128 + 1) % 64
  let fl := if n % 128 = 0 then cellClear s.flash (crashBase + k * 4096) (crashBase + k * 4096 + 4096) else s.flash
  { s with
    flash := cellPuts 0xFF fl (crashBase + n * 32) r.bytes,
    logs := { s.logs with crashNext := (n + 1) % 8192 } }

/-- Whether a record goes to the crash log as well (R445). -/
def toCrash (code cls : Nat) : Bool :=
  cls == 1 || code == EV.logRailFault || code == EV.logBoot || code == EV.fwFallback

/-- The newest record that a repetition less than 1 s later merges into (R447); a LOG_RAIL_FAULT never
merges. -/
def LogRec.merges (r : LogRec) (now code source payload : Nat) : Bool :=
  r.code == code && r.source == source && now < r.stamp + 1000000000 && code != EV.logRailFault &&
  (code != EV.logTransient || r.payload == payload)

/-- A log record: merged, or written to the AON log and where due to the crash log. -/
def State.log (s : State) (r : LogRec) : State :=
  match s.logs.aon.reverse.findIdx? (fun x => x.merges s.now r.code r.source r.payload) with
  | some i =>
    { s with logs := { s.logs with
        aon := updAt s.logs.aon (s.logs.aon.length - 1 - i) (fun x => { x with count := sat 8 (x.count + 1) }) } }
  | none =>
    let r := { r with boot := s.logs.boot }
    let s := { s with logs := { s.logs with aon := (s.logs.aon ++ [r]).drop (s.logs.aon.length + 1 - 2048) } }
    if toCrash r.code r.cls then s.crash r else s

/-- Held events of a mailbox written as far as there is room. -/
def State.flush (s : State) (m : Nat) : State :=
  let b := s.mb m
  let s := if m = 0 && b.eqRoom && b.lostDue != 0 then
      s.log { code := EV.eventsLost, cls := 2, stamp := s.now, payload := b.lostDue } else s
  (s.updMb m (Mailbox.flush s.now (b.hold.length + 1))).signalEq m b

/-- A log-only record of device level (Table 23-4). -/
def State.logOnly (s : State) (code cls payload : Nat) : State :=
  s.log { code := code, cls := cls, stamp := s.now, payload := payload % 2 ^ 64 }

/-- Whether a SOURCE belongs to a confidential partition, whose records carry no SOURCE and PAYLOAD (R446). -/
def State.secretSource (s : State) (part : Option Nat) : Bool :=
  match part with
  | none => false
  | some p => (s.part p).cfg.confidential

/-- An event: written to the rings named, and logged when it is transient or lasting or goes to the admin
ring (R444, R445). `cls` is 0 T, 1 L, 2 P; `part` the partition its SOURCE belongs to, `hide` whether that is confidential. A payload
that no rule lays out is a free value (log entry 18). -/
def State.emit (s : State) (rings : List Nat) (code cls : Nat) (source : Nat := 0)
    (payload : Nat := Config.eventPayload code s.now) (final : Bool := false) (part : Option Nat := none)
    (hide : Bool := s.secretSource part) : State :=
  let s := if cls < 2 || rings.contains 0 then
      s.log { code := code, cls := cls, stamp := s.now,
              source := if hide then 0 else source, payload := if hide then 0 else payload % 2 ^ 64 }
    else s
  rings.foldl (fun s m => s.post m { code := code, final := final, source := source, payload := payload }) s

/-- Every ring (the All of Table 23-3). -/
def allRings : List Nat := List.range 33

/-- A transient error judged (R442): counted at its source and logged. -/
def State.transient (s : State) (typ loc : Nat) : State :=
  let old := (s.logs.transient.find? (fun x => x.1 == typ && x.2.1 == loc)).elim 0 (·.2.2)
  let s := { s with logs := { s.logs with
    transient := (typ, loc, old + 1) :: s.logs.transient.filter (fun x => !(x.1 == typ && x.2.1 == loc)) } }
  s.logOnly EV.logTransient 0 (pay [(0, typ), (1, loc % 2 ^ 56)])

/-- A cause bit of PWR_ALERT_CAUSE set (R457). -/
def State.alertBit (s : State) (i : Nat) : State :=
  { s with sup := { s.sup with alert := s.sup.alert ||| BitVec.ofNat 8 (2 ^ i) } }

/-- ALERT_N is asserted while any cause bit is set (R56). -/
def State.alertN (s : State) : Bool := s.sup.alert != 0

/-- FAULT_N asserted. -/
def State.fault (s : State) : State := { s with sup := { s.sup with faultN := true } }

end Sys2Proof.Machine
end

