-- ==== Sys2Proof/Machine/Access.lean ====
section
/-! DEFINITION. The address map (R236 to R243), frame ownership (R241), and checked access to memory by local and Valley addresses. -/
namespace Sys2Proof.Machine

/-- Key of byte `o` of frame `f` of Basin `b`: the affine local address (R239). -/
def frameKey (b f o : Nat) : Nat := affineBase + b * 2 ^ 36 + f * 4096 + o

/-- Basin and Basin frame of an interleaved frame number (R238). -/
def interleave (live : List Nat) (F : Nat) : Nat × Nat :=
  if live.length = 8 then ((F % 8) ^^^ (F / 8 % 8) ^^^ (F / 64 % 8), F / 8)
  else (live.getD (F % live.length) 0, F / live.length)

/-- The interleaved frame number of a Basin frame, if the Basin is live (R238 read backwards). -/
def deinterleave (live : List Nat) (b f : Nat) : Option Nat :=
  if live.length = 8 then some (f * 8 + (b ^^^ (f % 8) ^^^ (f / 8 % 8)))
  else (live.findIdx? (· == b)).map (f * live.length + ·)

/-- First address of the plain stores and of the line buffers (Table 12-2), and their sizes. -/
def storeBase : Nat := 0x6000000000
def lineBase : Nat := 0x6100000000
def storeSize : Nat := 0x1000000
def lineSize : Nat := 768 * 1024

/-- The key of a local address, or `none` in a reserved range (Table 12-2). -/
def localKey (s : State) (a : Nat) : Option Nat :=
  if a < s.mem.live.length * Config.basinBytes then
    let (b, f) := interleave s.mem.live (a / 4096)
    some (frameKey b f (a % 4096))
  else if storeBase ≤ a && a < storeBase + 32 * storeSize then some a
  else if lineBase ≤ a && a < lineBase + 32 * 0x100000 && a % 0x100000 < lineSize then some a
  else if affineBase ≤ a && a < affineBase + 8 * 2 ^ 36 && (a - affineBase) % 2 ^ 36 / 4096 < Config.allocatableFrames then some a
  else none

/-- Basin, frame of a Basin key. -/
def keyBasin (k : Nat) : Nat := (k - affineBase) / 2 ^ 36
def keyFrame (k : Nat) : Nat := (k - affineBase) % 2 ^ 36 / 4096

/-- The half-plain whose store or line buffer a key lies in. -/
def keyHalf (k : Nat) : Nat := if k < lineBase then (k - storeBase) / storeSize else (k - lineBase) / 0x100000

/-- The allocation that holds a Basin frame, in either view. -/
def allocOf (s : State) (b f : Nat) : Option Alloc :=
  s.mem.allocs.find? fun x =>
    if x.base < affineBase then
      match deinterleave s.mem.live b f with
      | some F => x.base ≤ F * 4096 && F * 4096 < x.base + x.size
      | none => false
    else x.base ≤ frameKey b f 0 && frameKey b f 0 < x.base + x.size

/-- OWNER of a Basin frame (Table 12-3): 0 to 31 a partition, 32 FREE, 33 ADMIN, 34 SUSPEND, 35 SCRUBBING,
36 RETIRED. -/
def frameOwner (s : State) (b f : Nat) : Nat :=
  if Config.allocatableFrames ≤ f then 34
  else if (deinterleave s.mem.live b f).any (· < 65536) then 33
  else match allocOf s b f with
    | some x => x.part
    | none =>
      if s.mem.scrubbing.any (fun r => r.1 ≤ frameKey b f 0 / 4096 && frameKey b f 0 / 4096 < r.2) then 35
      else if s.mem.retired.contains (frameKey b f 0 / 4096) then 36
      else 32

/-- ZERO of a frame's owner byte: handed out and not written since (R242). -/
def frameZero (s : State) (b f : Nat) : Bool :=
  (allocOf s b f).isSome && !s.mem.filled.contains (frameKey b f 0 / 4096)

/-- Whether partition `p` owns half-plain `h`. -/
def ownsHalf (s : State) (p h : Nat) : Bool := (s.part p).exist && bit (s.part p).cfg.hpMask h

/-- The partition that owns half-plain `h`. -/
def halfOwner (s : State) (h : Nat) : Option Nat := findFrom (fun p => if ownsHalf s p h then some p else none) 0 32

/-- The owner of a key: a frame's OWNER, or the partition of the half-plain; 32 where there is none. -/
def keyOwner (s : State) (k : Nat) : Nat :=
  if affineBase ≤ k then frameOwner s (keyBasin k) (keyFrame k) else (halfOwner s (keyHalf k)).getD 32

/-- The outcome of the checks on one access. -/
inductive Acc where
  | ok (key : Nat)
  | unmapped
  | resetting
deriving DecidableEq, Repr

/-- One access by a master of partition `p` (33 the PF's): R219 first, then the map, R241 and the Plain OFF
rule of R61. -/
def access (s : State) (p a : Nat) : Acc :=
  match localKey s a with
  | none => .unmapped
  | some k =>
    let o := keyOwner s k
    if o < 32 && (s.part o).step != 0 then .resetting
    else if o != p then .unmapped
    else if k < affineBase && (s.plain (keyHalf k / 2)).state == .off then .unmapped
    else .ok k

/-- Whether one access is allowed. -/
def Acc.good : Acc → Bool
  | .ok _ => true
  | _ => false

/-- First addresses of the 4 KiB pieces of a range. -/
def pieces (a n : Nat) : List Nat :=
  if n = 0 then [] else (List.range ((a % 4096 + n + 4095) / 4096)).map (fun i => a / 4096 * 4096 + i * 4096)

/-- Whether a whole range of the local space may be reached by partition `p`. -/
def rangeOk (s : State) (p a n : Nat) : Bool :=
  a + n ≤ 2 ^ 40 && (pieces a n).all fun x => (access s p x).good

/-- Whether a range lies wholly in memory that partition `p` owns, whatever its reset state (EXTENT, R174). -/
def rangeOwned (s : State) (p a n : Nat) : Bool :=
  a + n ≤ 2 ^ 40 && (pieces a n).all fun x =>
    match localKey s x with
    | some k => keyOwner s k == p
    | none => false

/-- A byte at a local address; a reserved address reads zero here (its access has faulted before). -/
def State.rd8 (s : State) (a : Nat) : Byte := ((localKey s a).map s.mem.get).getD 0

/-- `n` bytes from a local address. -/
def State.rd (s : State) (a n : Nat) : List Byte := (List.range n).map fun i => s.rd8 (a + i)

/-- A little-endian number of `n` bytes. -/
def State.rdNat (s : State) (a n : Nat) : Nat := leNat (s.rd a n)

/-- Whether a key lies in a Basin that has FAILED (Hard corners of chapter 12), or that holds no keys since Solram's ERROR
(R408): its reads are poisoned and its writes dropped. -/
def State.deadKey (s : State) (k : Nat) : Bool := affineBase ≤ k && ((s.basin (keyBasin k)).state == .failed || s.sec.error)

/-- A byte stored at a local address; nothing at a reserved one, or in a Basin that has failed. -/
def State.wr8 (s : State) (a : Nat) (v : Byte) : State :=
  match localKey s a with
  | some k => if s.deadKey k then s else { s with mem := s.mem.put k v }
  | none => s

/-- Bytes stored from a local address on. -/
def State.wr (s : State) (a : Nat) : List Byte → State
  | [] => s
  | v :: r => State.wr (s.wr8 a v) (a + 1) r

/-- Granules wholly covered by a store of `n` bytes lose their poison (R251). -/
def State.unpoison (s : State) (a n : Nat) : State :=
  (List.range (n / 64 + 1)).foldl (fun s i =>
    let g := (a + 63) / 64 * 64 + i * 64
    if g + 64 ≤ a + n then
      match localKey s g with
      | some k => { s with mem := s.mem.mark k false }
      | none => s
    else s) s

/-- A store with its effect on poison. -/
def State.store (s : State) (a : Nat) (l : List Byte) : State := (s.wr a l).unpoison a l.length

/-- Whether any granule of a range is poisoned. -/
def State.anyPoison (s : State) (a n : Nat) : Bool :=
  (List.range ((a % 64 + n + 63) / 64)).any fun i =>
    match localKey s (a / 64 * 64 + i * 64) with
    | some k => s.mem.poisoned k || s.deadKey k
    | none => false

/-- Chip and local part of a Valley address (R243). -/
def vChip (v : Nat) : Nat := bits v 40 12
def vLocal (v : Nat) : Nat := bits v 0 40
def State.isLocal (s : State) (v : Nat) : Bool := vChip v == s.chip

end Sys2Proof.Machine
end

