-- ==== Sys2Proof/Machine/Operands.lean ====
section
/-! DEFINITION. Operand forms: operation descriptors (Table 9-2, Table 9-3), tensor descriptors (R174 to R177), which fields of a body name tensors, element addresses and spans. -/
namespace Sys2Proof.Machine
open Sys2Proof

/-! ### Operation codes (Table 9-4) -/

def oMatmul : Nat := 0x01
def oConv : Nat := 0x02
def oTconv : Nat := 0x03
def oAttn : Nat := 0x04
def oNorm : Nat := 0x05
def oSfu : Nat := 0x06
def oSoftmax : Nat := 0x07
def oQuant : Nat := 0x08
def oCopy : Nat := 0x09
def oColl : Nat := 0x0A
def oWait : Nat := 0x0B
def oSignal : Nat := 0x0C
def oKvAppend : Nat := 0x0D
def oCompose : Nat := 0x0E

/-! ### Headers -/

/-- A block of 64 bytes at a local address. -/
def State.block (s : State) (a : Nat) : Block := BitVec.ofNat 512 (s.rdNat a 64)

def dOp (b : Block) : Nat := b.nat 0 0 8
def dOverlap (b : Block) : Bool := b.bit 1 0
def dHpMax (b : Block) : Nat := b.nat 2 0 8
def dRound (b : Block) : Nat := b.nat 3 0 2
def dSat (b : Block) : Bool := b.bit 3 2
def dSeed (b : Block) : Nat := b.nat 4 0 16
def dDst (b : Block) : Nat := b.nat 8 0 52

/-- Offsets of the body fields that name tensors, in order of offset (R188). -/
def tensorFields (op : Nat) : List Nat :=
  match op with
  | 0x01 => [16, 24, 32]
  | 0x02 => [16, 24, 32]
  | 0x03 => [16, 24, 32]
  | 0x04 => [16, 24, 32]
  | 0x05 => [16, 24, 32]
  | 0x06 => [16, 24]
  | 0x07 => [16]
  | 0x08 => [16]
  | 0x09 => [16]
  | 0x0A => [16]
  | 0x0D => [16, 24]
  | 0x0E => [24]
  | _ => []

/-- The address in a tensor field of a body. -/
def dField (b : Block) (off : Nat) : Nat := b.nat off 0 52

/-- The tensor addresses of a descriptor with their operand numbers: 0 DST, then the body fields in order
of offset; fields that hold 0 name none. -/
def tensorRefs (b : Block) : List (Nat × Nat) :=
  ((0, dDst b) :: (tensorFields (dOp b)).mapIdx (fun i o => (i + 1, dField b o))).filter (·.2 != 0)

/-! ### Tensor descriptors (Table 9-1) -/

/-- A tensor descriptor as it is read. -/
structure Tensor where
  base : Nat
  rank : Nat
  layout : Nat
  scale : Nat
  fmt : Nat
  dims : List Nat
  strides : List Nat
deriving DecidableEq, Repr

/-- A tensor descriptor from its block; STRIDE of dimension 0 is not stored and stands as 0. -/
def tensorOf (b : Block) : Tensor :=
  { base := b.nat 0 0 52, rank := b.nat 0 52 3, layout := b.nat 0 55 2, scale := b.nat 8 0 52, fmt := b.nat 16 0 8,
    dims := [20, 24, 28, 32, 36, 40].map (fun o => b.nat o 0 32),
    strides := 0 :: [44, 48, 52, 56, 60].map (fun o => b.nat o 0 32) }

/-- The tensor that a field of a descriptor names. -/
def State.tensor (s : State) (a : Nat) : Tensor := tensorOf (s.block (vLocal a))

def Tensor.dim (t : Tensor) (i : Nat) : Nat := t.dims.getD i 0
def Tensor.stride (t : Tensor) (i : Nat) : Nat := t.strides.getD i 0
/-- Extents below RANK. -/
def Tensor.shape (t : Tensor) : List Nat := t.dims.take t.rank
/-- Number of elements. -/
def Tensor.count (t : Tensor) : Nat := t.shape.prod

/-- Width in bits of an element of a format code (Table 14-1); 0 for an unknown code. -/
def fmtBits (f : Nat) : Nat :=
  match f with
  | 0x01 => 32
  | 0x02 | 0x03 => 16
  | 0x04 | 0x05 => 8
  | 0x10 | 0x11 => 8
  | 0x12 | 0x13 => 6
  | 0x14 => 4
  | 0x15 => 8
  | 0x20 => 8
  | 0x21 => 32
  | _ => 0

/-- Whether a format code is one of the MX formats. -/
def isMx (f : Nat) : Bool := 0x10 ≤ f && f ≤ 0x15

/-- The row in bits and in bytes (R175). -/
def Tensor.rowBits (t : Tensor) : Nat := t.dim 0 * fmtBits t.fmt
def Tensor.row (t : Tensor) : Nat := t.rowBits / 8

/-- The span (R175). -/
def Tensor.span (t : Tensor) : Nat :=
  ((List.range (t.rank - 1)).map fun i => (t.dim (i + 1) - 1) * t.stride (i + 1) * 8).sum + t.row

/-- Bytes the data of a tensor occupy, rows counted once each, and its scales. -/
def Tensor.bytes (t : Tensor) : Nat :=
  t.count * fmtBits t.fmt / 8 + (if isMx t.fmt then t.count / 32 else 0)

/-- Coordinates of the `n`-th element, dimension 0 innermost. -/
def coords : List Nat → Nat → List Nat
  | [], _ => []
  | d :: r, n => n % d :: coords r (n / d)

/-- Number of the element at given coordinates. -/
def indexOf : List Nat → List Nat → Nat
  | [], _ => 0
  | d :: r, c => c.headD 0 + d * indexOf r c.tail

/-- Bit offset of an element from BASE: the packed row, then the strides. -/
def Tensor.bitOff (t : Tensor) (c : List Nat) : Nat :=
  c.headD 0 * fmtBits t.fmt + ((c.zip t.strides).map fun p => p.1 * p.2 * 64).sum

/-- Valley address of the scale of the block that holds given coordinates (R177). -/
def Tensor.scaleAddr (t : Tensor) (c : List Nat) : Nat :=
  t.scale + indexOf (t.dim 0 / 32 :: t.shape.tail) (c.headD 0 / 32 :: c.tail)

/-- First byte and length of every 4 KiB piece, and of every granule, that a tensor's data and scales touch
are those of its span and its packed scales. -/
def Tensor.regions (t : Tensor) : List (Nat × Nat) :=
  (t.base, t.span) :: (if isMx t.fmt then [(t.scale, t.count / 32)] else [])

/-- Channels of a channel-blocked image (R177): dimension 0 times dimension 3. -/
def Tensor.channels (t : Tensor) : Nat := t.dim 0 * t.dim 3

end Sys2Proof.Machine
end

