-- ==== Sys2Proof/Machine/Plan.lean ====
section
/-! DEFINITION. The fields of a convolution (Table 18-1), its column slices (R349), the stripe plan of each slice (R350, Table 18-2) and what a plan fetches (R351, R352); the work and bytes of a descriptor (R197). -/
namespace Sys2Proof.Machine
open Sys2Proof

/-! ### Fields -/

/-- The fields of Table 18-1. -/
structure Conv where
  kh : Nat
  kw : Nat
  sh : Nat
  sw : Nat
  dh : Nat
  dw : Nat
  padMode : Nat
  pool : Nat
  exclude : Bool
  upsample : Nat
  groups : Nat
  padT : Nat
  padB : Nat
  padL : Nat
  padR : Nat
  outH : Nat
  outW : Nat

def convOf (b : Block) : Conv :=
  { kh := b.nat 40 0 4, kw := b.nat 40 4 4, sh := b.nat 41 0 4, sw := b.nat 41 4 4, dh := b.nat 42 0 4, dw := b.nat 42 4 4,
    padMode := b.nat 43 0 2, pool := b.nat 43 2 2, exclude := b.bit 43 4, upsample := b.nat 43 5 2, groups := b.nat 44 0 16,
    padT := b.nat 46 0 8, padB := b.nat 47 0 8, padL := b.nat 48 0 8, padR := b.nat 49 0 8, outH := b.nat 50 0 4,
    outW := b.nat 50 4 4 }

/-- Receptive height and width (R343). -/
def Conv.recH (c : Conv) : Nat := c.dh * (c.kh - 1) + 1
def Conv.recW (c : Conv) : Nat := c.dw * (c.kw - 1) + 1

/-- Width and height of an image (R342). -/
def Tensor.imgW (t : Tensor) : Nat := t.dim 1
def Tensor.imgH (t : Tensor) : Nat := t.dim 2

/-- A coordinate of a tap brought into an axis of `len` by PAD_MODE; none where padding supplies +0 (R343). -/
def padAt (mode len : Nat) (v : Int) : Option Nat :=
  if 0 ≤ v ∧ v < len then some v.toNat
  else match mode with
    | 1 => some (if v < 0 then 0 else len - 1)
    | 2 => some (if v < 0 then (-v).toNat else (2 * ((len : Int) - 1) - v).toNat)
    | _ => none

/-- Tap coordinates of an output position on one axis, in order of the kernel index. -/
def taps (k d stride pad out : Nat) : List Int :=
  (List.range k).map fun i => ((out * stride + i * d : Nat) : Int) - pad

/-- Kernel indices of one axis of a TCONV that land on an output position, with the input position each comes from (R345). -/
def landing (k d stride pad len out : Nat) : List (Nat × Nat) :=
  (List.range k).filterMap fun i =>
    let v : Int := ((out + pad : Nat) : Int) - (i * d : Nat)
    if 0 ≤ v ∧ v % stride = 0 ∧ v / stride < len then some (i, (v / stride).toNat) else none

/-! ### What an axis reads -/

/-- How an axis of the output comes from one of the input. -/
inductive AxisKind where
  | conv | scatter | nearest | bilinear
deriving DecidableEq, Repr

/-- One axis of a CONV or TCONV: kernel extent, dilation, stride, leading pad, extents of input and output, and PAD_MODE. -/
structure Axis where
  kind : AxisKind
  k : Nat
  d : Nat
  stride : Nat
  pad : Nat
  len : Nat
  outs : Nat
  mode : Nat

/-- The receptive extent. -/
def Axis.extent (a : Axis) : Nat := a.d * (a.k - 1) + 1

/-- First and last input position, those of the padding included, that `n` output positions from `o` on read: for a convolution
the whole of their receptive fields. -/
def Axis.span (a : Axis) (o n : Nat) : Int × Int :=
  let z : Int := ((o + n - 1 : Nat) : Int)
  match a.kind with
  | .conv => (((o * a.stride : Nat) : Int) - a.pad, z * a.stride - a.pad + (a.extent - 1 : Nat))
  | .scatter => (-((((a.extent - 1 : Nat) : Int) - ((o + a.pad : Nat) : Int)) / (a.stride : Int)), (z + a.pad) / a.stride)
  | .nearest => (((o / a.stride : Nat) : Int), z / a.stride)
  | .bilinear => ((((2 * o + 1 : Nat) : Int) - a.stride) / (2 * a.stride),
      -((-(2 * z + 1 - (a.stride : Int))) / (2 * a.stride)))

/-- How many input positions that is (R349). -/
def Axis.width (a : Axis) (o n : Nat) : Nat := ((a.span o n).2 - (a.span o n).1 + 1).toNat

/-- Input positions inside the image that the taps of an output position read, those that padding repeats included. -/
def Axis.taps (a : Axis) (o : Nat) : List Nat :=
  match a.kind with
  | .conv => (Sys2Proof.Machine.taps a.k a.d a.stride a.pad o).filterMap (padAt a.mode a.len)
  | .scatter => (landing a.k a.d a.stride a.pad a.len o).map (·.2)
  | _ => (List.range a.len).filter fun v => decide ((a.span o 1).1 ≤ v) && decide ((v : Int) ≤ (a.span o 1).2)

/-- Whether `n` output positions from `o` on have an input position fetched: it lies under one of their receptive fields, or
padding repeats it (R351). -/
def Axis.reads (a : Axis) (o n v : Nat) : Bool :=
  (List.range n).any fun k => (decide ((a.span (o + k) 1).1 ≤ v) && decide ((v : Int) ≤ (a.span (o + k) 1).2)) || (a.taps (o + k)).contains v

/-- Input rows fetched for `n` output rows from `o` on: where strides pass over rows, those are not (R351). -/
def Axis.rows (a : Axis) (o n : Nat) : List Nat := (List.range a.len).filter (a.reads o n)

/-- Input columns fetched for `n` output columns from `o` on: the row of a slice is one run of columns (R349). -/
def Axis.cols (a : Axis) (o n : Nat) : List Nat :=
  (List.range a.len).filter fun v => (decide ((a.span o n).1 ≤ v) && decide ((v : Int) ≤ (a.span o n).2)) || a.reads o n v

/-- The two axes, rows and columns, of a CONV or TCONV descriptor. MAX pooling ignores PAD_MODE (R348). -/
def axesOf (b : Block) (src dst : Tensor) : Axis × Axis :=
  let c := convOf b
  let kind : AxisKind :=
    if dOp b = oConv then .conv else match c.upsample with
      | 1 => .nearest
      | 2 => .bilinear
      | _ => .scatter
  let mode := if dOp b = oConv && c.pool != 2 then c.padMode else 0
  ({ kind := kind, k := c.kh, d := c.dh, stride := c.sh, pad := c.padT, len := src.imgH, outs := dst.imgH, mode := mode },
   { kind := kind, k := c.kw, d := c.dw, stride := c.sw, pad := c.padL, len := src.imgW, outs := dst.imgW, mode := mode })

/-! ### The stripe plan -/

/-- LB (R350). -/
def lineBytes : Nat := 786432

/-- Output columns of the slices of a descriptor on `n` half-plains, as first column and width (R349). Where ⌈Wo / s⌉ columns each
leave nothing for a last slice, it is empty (log entry 158). -/
def columnSlices (n wo : Nat) : List (Nat × Nat) :=
  let s := min n wo
  let w := (wo + s - 1) / s
  (List.range s).map fun k => (min (k * w) wo, min w (wo - min (k * w) wo))

/-- Bytes of a row of `w` columns: Cg rounded up to the block, in whole granules (R350). -/
def rowBytes (src : Tensor) (groups w : Nat) : Nat :=
  let cg := src.channels / max 1 groups
  let cb := (cg + src.dim 0 - 1) / src.dim 0 * src.dim 0
  (w * cb * fmtBits src.fmt / 8 + 63) / 64 * 64

/-- Input rows of a stripe of `h` output rows (R350). -/
def Axis.stripeRows (a : Axis) (h : Nat) : Nat :=
  match a.kind with
  | .conv => (h - 1) * a.stride + a.extent
  | _ => (h + a.extent - 1 + a.stride - 1) / a.stride + 1

/-- The most output rows whose stripe takes at most `r` input rows. -/
def Axis.rowsFit (a : Axis) (r : Nat) : Nat :=
  match a.kind with
  | .conv => (r - a.extent) / a.stride + 1
  | _ => (r - 1) * a.stride + 1 - a.extent

/-- The column tiles of a slice, as first column and width. -/
def columnTiles (first width tile : Nat) : List (Nat × Nat) :=
  (List.range ((width + tile - 1) / tile)).map fun k => (first + k * tile, min tile (width - k * tile))

/-- The plan of one slice (Table 18-2): the first mode that fits. -/
def planOf (rows cols : Axis) (src : Tensor) (groups : Nat) (slice : Nat × Nat) : Plan :=
  let (first, width) := slice
  let h8 := min rows.outs 8
  let fits (l : List (Nat × Nat)) : Bool :=
    l.all fun t => rows.stripeRows h8 * rowBytes src groups (cols.width t.1 t.2) ≤ lineBytes
  if fits [slice] then
    { first := first, width := width, mode := .stripe, tile := width,
      rows := min rows.outs (rows.rowsFit (lineBytes / rowBytes src groups (cols.width first width))) }
  else match (List.range width).reverse.find? fun w => fits (columnTiles first width (w + 1)) with
    | some w => { first := first, width := width, mode := .column, tile := w + 1, rows := h8 }
    | none => { first := first, width := width, mode := .direct, tile := width, rows := 1 }

/-- The plans of a CONV or TCONV on `n` half-plains, one for each that has a slice; none for another operation (R349, R350). -/
def plansOf (b : Block) (src dst : Tensor) (n : Nat) : List Plan :=
  if dOp b = oConv || dOp b = oTconv then
    let (r, c) := axesOf b src dst
    ((columnSlices n dst.imgW).filter (·.2 != 0)).map (planOf r c src (convOf b).groups)
  else []

/-! ### What a plan fetches -/

/-- Rows and columns that a plan fetches, those fetched more than once as often as they are (Table 18-2). -/
def Plan.reads (p : Plan) (rows cols : Axis) : List (List Nat × List Nat) :=
  match p.mode with
  | .stripe => [(rows.rows 0 rows.outs, cols.cols p.first p.width)]
  | .column => (columnTiles p.first p.width p.tile).map fun t => (rows.rows 0 rows.outs, cols.cols t.1 t.2)
  | .direct => (List.range rows.outs).map fun y => (rows.taps y, cols.cols p.first p.width)

/-- The stripes of a plan, as tile and first output row. -/
def Plan.stripes (p : Plan) (outs : Nat) : List ((Nat × Nat) × Nat) :=
  (columnTiles p.first p.width p.tile).flatMap fun t => (List.range ((outs + p.rows - 1) / p.rows)).map fun k => (t, k * p.rows)

/-- What a slice fetches again when a pre-empted descriptor resumes at the start of the `k`-th stripe (R352). -/
def Plan.again (p : Plan) (rows cols : Axis) (k : Nat) : List (List Nat × List Nat) :=
  match p.mode, (p.stripes rows.outs)[k % (p.stripes rows.outs).length]? with
  | .direct, some (_, y) => [(rows.taps y, cols.cols p.first p.width)]
  | _, some (t, y) => [(rows.rows y (min p.rows (rows.outs - y)), cols.cols t.1 t.2)]
  | _, none => []

/-- The regions of an image's samples at given rows and columns. -/
def Tensor.pixels (t : Tensor) (a : List Nat × List Nat) : List (Nat × Nat) :=
  (List.range (t.dim 4)).flatMap fun n => (List.range (t.dim 3)).flatMap fun c => a.1.flatMap fun y => a.2.map fun x =>
    (t.base + 8 * (x * t.stride 1 + y * t.stride 2 + c * t.stride 3 + n * t.stride 4), t.row)

/-- The packed scales of a tensor. -/
def Tensor.scales (t : Tensor) : List (Nat × Nat) := if isMx t.fmt then [(t.scale, t.count / 32)] else []

/-! ### Work and bytes of a descriptor (R197) -/

/-- Samples of SRC that the plans of a CONV or TCONV on `n` half-plains fetch (R351). -/
def fetchedPixels (b : Block) (src dst : Tensor) (n : Nat) : Nat :=
  let (r, c) := axesOf b src dst
  (((plansOf b src dst n).flatMap fun p => p.reads r c).map fun a => a.1.length * a.2.length).sum * src.dim 3 * src.dim 4

/-- Bytes a descriptor on `n` half-plains moves to and from HBM and over Pass ports, from its tensor descriptors (Table 10-3): a
tensor in a plain store or a line buffer of this chip counts nothing, the image of a CONV or TCONV what its plans fetch (R351). -/
def State.dBytes (s : State) (b : Block) (n : Nat) : Nat :=
  let image := dOp b = oConv || dOp b = oTconv
  ((tensorRefs b).map fun r =>
    let t := s.tensor r.2
    if s.isLocal t.base && storeBase ≤ vLocal t.base && vLocal t.base < affineBase then 0
    else if image && r.1 = 1 then
      fetchedPixels b t (s.tensor (dDst b)) n * t.row + (if isMx t.fmt then t.count / 32 else 0)
    else t.bytes).sum

/-- W: MACs for MATMUL, CONV, TCONV and ATTN, elements for the others (Table 10-3). A MATMUL takes K for each element
of DST; a CONV the kernel's taps times the channels of a group; a TCONV the same for each element of SRC; an
ATTN two products of the queries with the KV length (log entry 25). -/
def State.dWork (s : State) (b : Block) (kvLen : Nat) : Nat :=
  let dst := s.tensor (dDst b)
  let src (o : Nat) := s.tensor (dField b o)
  let taps := b.nat 40 0 4 * b.nat 40 4 4
  let g := max 1 (b.nat 44 0 16)
  match dOp b with
  | 0x01 => dst.count * (src 16).dim 0
  | 0x02 => dst.count * taps * (if dField b 24 = 0 then 1 else (src 16).channels / g)
  | 0x03 => if dField b 24 = 0 then dst.count else (src 16).count * taps * (dst.channels / g)
  | 0x04 => 2 * dst.count * max 1 kvLen
  | 0x0D => (src 16).count + (src 24).count
  | 0x0E => if dField b 24 = 0 then 0 else (src 24).count
  | _ => dst.count

end Sys2Proof.Machine
end

