-- ==== Sys2Proof/Machine/Ford.lean ====
section
/-! DEFINITION. Ford windows: layout (R124), flags and hand-off (R127 to R130, R136), poisoning (R137), scans (R130 to R132). -/
namespace Sys2Proof.Machine

/-- FLAG_BYTES of a window (R124). -/
def Window.flagBytes (w : Window) : Nat := (w.count * 4 + 4095) / 4096 * 4096
/-- SLOT_SIZE. -/
def Window.slotSize (w : Window) : Nat := 2 ^ w.shift
/-- The window's length. -/
def Window.len (w : Window) : Nat := w.flagBytes + w.count * w.slotSize
/-- Window offset of slot `i`. -/
def Window.slotOff (w : Window) (i : Nat) : Nat := w.flagBytes + i * w.slotSize
/-- Local address of slot `i`. -/
def Window.slotAddr (w : Window) (i : Nat) : Nat := w.base + w.slotOff i
def Window.slot (w : Window) (i : Nat) : Slot := w.slots.getD i {}

/-- The 32-bit ownership flag (Table 6-6). -/
def Slot.flag (x : Slot) : Nat := x.owner + x.seq * 65536

def State.updSlot (s : State) (f w i : Nat) (g : Slot → Slot) : State :=
  s.updWindow f w fun x => { x with slots := updAt x.slots i g }

/-- A violation counted, saturating (Table 24-4). -/
def State.violate (s : State) (f w : Nat) : State :=
  s.updWindow f w fun x => { x with violations := sat 16 (x.violations + 1) }

/-- A dropped write to a slot: counted, and EV_FORD_VIOLATION for the first since its last hand-off (R129).
PAYLOAD: window in byte 0, slot in bytes 2 and 3 (log entry 18). -/
def State.slotViolation (s : State) (f w i : Nat) : State :=
  let first := !((s.window f w).slot i).marked
  let s := (s.violate f w).updSlot f w i fun x => { x with marked := true }
  if first then s.emit [f] EV.fordViolation 2 (hWindow w) (pay [(0, w), (2, i)]) else s

/-- Where a function's requests find a host address: each function is a requester of its own, whose addresses the host's IOMMU
translates on their own (R111, R120). -/
def hostKey (f a : Nat) : Nat := f * 2 ^ 64 + a % 2 ^ 64

/-- Bytes written to the mirror in host memory, by the function as requester (R120, R127). -/
def State.mirrorPut (s : State) (f a : Nat) (l : List Byte) : State :=
  { s with host := cellPuts 0 s.host (hostKey f a) l }

/-- The mirrored flag of a slot, where the window has a mirror (R127). -/
def State.mirrorFlag (s : State) (f w i : Nat) : State :=
  let x := s.window f w
  if x.mirror = 0 then s else s.mirrorPut f (x.mirror + 4 * i) (leBytes 4 (x.slot i).flag)

/-- A change of a slot's OWNER by the device or accepted from the host: SEQ one higher, the violation mark
cleared, the mirrored flag written (R128). Flags are held by the window's hardware and not in its backing (DEDUCED, log entry 156). -/
def State.setOwner (s : State) (f w i owner : Nat) : State :=
  (s.updSlot f w i fun x =>
    { x with owner := owner, seq := (x.seq + 1) % 65536, marked := false, taken := false, wrote := [] }).mirrorFlag f w i

/-- The device's hand-off of a slot to HOST: flag, mirrored data, mirrored flag, message (R136). -/
def State.handBack (s : State) (f w i : Nat) : State :=
  let x := s.window f w
  let s := if x.mirror ≠ 0 && x.mirrorData then s.mirrorPut f (x.mirror + x.slotOff i) (s.rd (x.slotAddr i) x.slotSize) else s
  let s := s.setOwner f w i 1
  if x.irqEn then s.updFn f (·.fire x.vector) else s

/-- A slot set to POISONED with its event (R137). Causes, in byte 4: 0 DATA, 1 PRODUCER_FAULT,
2 CONSUMER_RESET; window in byte 0, slot in bytes 2 and 3 (log entry 18). -/
def State.poisonSlot (s : State) (f w i cause : Nat) : State :=
  (s.setOwner f w i 3).emit [f] EV.fordPoisoned (if cause = 0 then 1 else 2) (hWindow w) (pay [(0, w), (2, i), (4, cause)]) false
    (if f = 0 then none else some (f - 1))

/-- Slots of a window the device owns. -/
def Window.deviceSlots (x : Window) : List Nat :=
  (List.range x.count).filter fun i => (x.slot i).owner == 2

/-- A window unmapped; its VIOLATIONS and UNBOUND stay until the next FORD_MAP (Table 24-4). Input that a
decoder held in its slots is gone. -/
def State.unmap (s : State) (f w : Nat) : State :=
  let s := s.updWindow f w fun x => { violations := x.violations, unbound := x.unbound }
  { s with media := { s.media with decs := s.media.decs.map fun (d : Dec) =>
      (if d.part + 1 = f && d.slots.any (·.1 == w) then
        { d with slots := d.slots.filter (·.1 != w)
                 headUsed := if d.slots.head?.any (·.1 == w) then 0 else d.headUsed } else d) } }

/-- Streams that have written into slots of a window and still run. -/
def State.writersRun (s : State) (x : Window) : Bool :=
  x.slots.any fun y => y.wrote.any fun k => s.sched.runs.any fun r => r.s == k.1

/-- Every DEVICE slot of a window POISONED with cause CONSUMER_RESET; who wrote into it stays known. -/
def State.poisonOwned (s : State) (f w : Nat) : State :=
  let x := s.window f w
  x.deviceSlots.foldl (fun s i => (s.poisonSlot f w i 2).updSlot f w i fun y => { y with wrote := (x.slot i).wrote }) s

/-- A forced unmap that answers no command: every DEVICE slot POISONED, and the window removed once its producers have
stopped writing (Hard corners of chapter 06). -/
def State.forceUnmap (s : State) (f w : Nat) : State :=
  let s := s.poisonOwned f w
  if s.writersRun (s.window f w) then s.updWindow f w fun x => { x with shrunk := true } else s.unmap f w

/-- A check of a host flag write against Table 6-6 and R129. -/
def Slot.accepts (x : Slot) (v : Nat) : Bool :=
  x.owner != 2 && bits v 0 2 != 3 && bits v 2 14 == 0 &&
  (if bits v 0 2 != x.owner then bits v 16 16 == (x.seq + 1) % 65536 else bits v 16 16 == x.seq)

end Sys2Proof.Machine
end

