-- ==== Sys2Proof/Machine/Lolin.lean ====
section
/-! DEFINITION. The mailbox engine: entries (R140), completions (R142, R148), the request-ID window (R146, R147), and the frame every Lolin command runs in (R153). -/
namespace Sys2Proof.Machine

/-! ### Entry fields (Table 7-2) -/

def eOpcode (e : Block) : Nat := e.nat 0 0 16
def eFence (e : Block) : Bool := e.bit 2 0
def eNowait (e : Block) : Bool := e.bit 2 1
def eIrqOff (e : Block) : Bool := e.bit 2 2
def eId (e : Block) : BitVec 32 := BitVec.ofNat 32 (e.nat 4 0 32)
def eTarget (e : Block) : Nat := e.nat 8 0 32
/-- A field of PARAMS at byte offset `off` of the parameter block. -/
def eParam (e : Block) (off lo w : Nat) : Nat := e.nat (16 + off) lo w

/-- The 64-byte entry of a command: OPCODE and the fields it is given with; reserved bits zero. -/
def entryOf (c : Cmd) (op : Nat) : Block :=
  BitVec.ofNat 512 (op + b2n c.fence * 2 ^ 16 + b2n c.nowait * 2 ^ 17 + b2n c.irqOff * 2 ^ 18 +
    c.reqId.toNat * 2 ^ 32 + c.target.toNat * 2 ^ 64 + c.params.toNat * 2 ^ 128)

/-- Entries are compared on bytes 0 to 3 and 8 to 63 (R146). -/
def sameEntry (a b : Block) : Bool := a.nat 0 0 32 == b.nat 0 0 32 && a.nat 8 0 448 == b.nat 8 0 448

/-! ### Completions -/

/-- Free slots of the completion ring: those consumed and not reserved by a taken command or a held retry
(R144). -/
def Mailbox.cqFree (b : Mailbox) : Nat :=
  ringSize b.cqSize - b.cq.length - (b.taken.map (fun t => 1 + t.retries)).sum

/-- A completion record in the next slot, with its PHASE (R142). -/
def Mailbox.writeCq (b : Mailbox) (c : Completion) : Mailbox :=
  { b with
    cq := b.cq ++ [{ c with phase := b.cqCount / ringSize b.cqSize % 2 == 0 }],
    cqCount := b.cqCount + 1 }

/-- Whether R148 records a completion: not the BUSY class and not ST_ID_CONFLICT. -/
def recorded (status : Nat) : Bool := status / 256 != 1 && status != ST.idConflict

/-- A completion recorded in the request-ID window, the oldest leaving after 1,024 (R146). -/
def Mailbox.record (b : Mailbox) (e : Block) (c : Completion) : Mailbox :=
  if recorded c.status then { b with window := (b.window ++ [({ entry := e, done := c } : Recorded)]).drop (b.window.length + 1 - 1024) }
  else b

/-- A completion written, with the message of R142 unless IRQ_OFF. -/
def State.writeCq (s : State) (m : Nat) (c : Completion) (irqOff : Bool) : State :=
  let s := s.updMb m (·.writeCq c)
  if irqOff then s else s.updFn m (·.noteCq s.now)

/-- A taken command by its REQ_ID. -/
def Mailbox.find (b : Mailbox) (id : BitVec 32) : Option Taken := b.taken.find? (fun t => eId t.entry == id)
def State.taken (s : State) (r : Req) : Option Taken := (s.mb r.m).find r.id

/-- A taken command changed. -/
def State.updTaken (s : State) (r : Req) (f : Taken → Taken) : State :=
  s.updMb r.m fun b => { b with taken := b.taken.map fun t => if eId t.entry == r.id then f t else t }

/-- READY falls once a disabled mailbox has completed what it took (R139). -/
def Mailbox.settle (b : Mailbox) : Mailbox :=
  if !b.enable && b.taken.isEmpty then { b with ready := false } else b

/-- `n` DUP copies of a completion (R147). -/
def State.dups (s : State) (m : Nat) (c : Completion) (irqOff : Bool) : Nat → State
  | 0 => s
  | n + 1 => State.dups (s.writeCq m { c with dup := true } irqOff) m c irqOff n

/-- Admission of jobs and interpretation of commands go on: the CP runs (R156). -/
def State.cpUp (s : State) : Bool := s.cp.up && !s.cp.failed

/-- The HALT bits in force: below INVASIVE the register reads zero (R458). -/
def State.halts (s : State) : Nat := if s.sec.level = 2 then s.dbg.cpHalt.toNat else 0

/-- The completion of a taken command written: its CMD slot handed back (R162), the record written and kept (R148),
the ID released, and the DUP copies of held retries (R147). -/
def State.writeDone (s : State) (r : Req) (t : Taken) (status result : Nat) : State :=
  let s := match t.slot with
    | some (w, i) => if ((s.window r.m w).slot i).owner == 2 then s.handBack r.m w i else s
    | none => s
  let c : Completion := { reqId := r.id, status := status, result := result % 2 ^ 64, cpr := t.cpr || !s.cpUp }
  let irq := eIrqOff t.entry
  let s := s.updMb r.m fun b => { b with taken := b.taken.filter (fun x => eId x.entry != r.id) }
  let s := s.writeCq r.m c irq
  let s := s.updMb r.m (·.record t.entry c)
  let s := s.dups r.m c irq t.retries
  s.updMb r.m (·.settle)

/-- A command completes: its completion is written, or, where a CP exception has come after the commit, kept in the journal until
the restart (R158). A command that is no longer taken, its mailbox having been reset, completes nothing. -/
def State.complete (s : State) (r : Req) (status : Nat) (result : Nat := 0) : State :=
  match s.taken r with
  | none => s
  | some t => if t.deferred then s.updTaken r fun t => { t with done := some (status, result) } else s.writeDone r t status result

/-- A taken command left WAITING (R153). -/
def State.wait (s : State) (r : Req) : State := s.updTaken r fun t => { t with waiting := true }

/-- Each of several waiting commands completed alike. -/
def State.completeAll (s : State) (l : List Req) (status : Nat) (result : Nat := 0) : State :=
  l.foldl (fun s r => s.complete r status result) s

/-! ### Taking an entry (R146, R147) -/

/-- What the request-ID check answers. -/
inductive IdCheck where
  | new
  | retryDone (c : Completion)
  | retryHeld
  | conflict
deriving DecidableEq, Repr

/-- REQ_ID_CHECK: the entry against the window and the held IDs. -/
def Mailbox.idCheck (b : Mailbox) (e : Block) : IdCheck :=
  match b.find (eId e) with
  | some t => if sameEntry t.entry e then .retryHeld else .conflict
  | none => match b.window.reverse.find? (fun r => eId r.entry == eId e) with
    | some r => if sameEntry r.entry e then .retryDone r.done else .conflict
    | none => .new

/-- An entry taken: a retry is answered or held, a conflict is answered, a new command enters the journal
with its TAKEN stamp and, where its row names one, its CMD slot. -/
def State.take (s : State) (m : Nat) (e : Block) (slot : Option (Nat × Nat)) : State :=
  match (s.mb m).idCheck e with
  | .new => s.updMb m fun b => { b with taken := b.taken ++ [{ entry := e, stamp := s.now, slot := slot }] }
  | .retryHeld => s.updMb m fun b =>
      { b with taken := b.taken.map fun t => if eId t.entry == eId e then { t with retries := t.retries + 1 } else t }
  | .retryDone c => s.writeCq m { c with dup := true } (eIrqOff e)
  | .conflict => s.writeCq m { reqId := eId e, status := ST.idConflict } (eIrqOff e)

/-! ### The frame of a command -/

/-- The mailbox engine can take an entry: ring service on, a completion slot free, no EVENT_STALL (R144), every earlier
entry complete where FENCE asks for it (R154), the boot at its end (R82, R84), the chip ACTIVE and no WARM about to
start. -/
def State.admits (s : State) (m : Nat) (e : Block) : Bool :=
  let b := s.mb m
  b.ready && b.enable && !b.cfgErr && 0 < b.cqFree && !b.stall && (!eFence e || b.taken.isEmpty) &&
  (s.boot.stage == .ready || s.boot.stage == .service) && s.power.chip == .active && !s.power.warmDue

/-- An entry offered to the engine: taken, or, when it is new and the CP is down, answered with ST_BUSY_CP_RESTART where
NOWAIT is set or the CP has failed, else left POSTED (R157, R159). The answer is whether it was dealt with. -/
def State.offer (s : State) (m : Nat) (e : Block) (slot : Option (Nat × Nat)) : State × Bool :=
  if !s.admits m e then (s, false)
  else if (s.mb m).idCheck e == .new && !s.cpUp then
    if eNowait e || s.cp.failed then (s.writeCq m { reqId := eId e, status := ST.busyCpRestart, cpr := true } (eIrqOff e), true)
    else (s, false)
  else (s.take m e slot, true)

/-- Every command of a mailbox taken before this one is WAITING or complete, so that immediate commands complete in
ring order (R154). -/
def Mailbox.inTurn (b : Mailbox) (id : BitVec 32) : Bool := (b.taken.takeWhile fun t => eId t.entry != id).all (·.waiting)

/-- Entries posted and not taken. -/
def Mailbox.posted (b : Mailbox) : Bool := b.sqHead != b.sqTail

/-- A partition's mailbox number: VF n serves partition n - 1 (R116). -/
def mbPart (m : Nat) : Nat := m - 1

/-- Forced unmaps whose producers have stopped writing come to their end (Hard corners of chapter 06). -/
def State.drainWindows (s : State) : State :=
  (List.range 33).foldl (fun s f => (List.range 64).foldl (fun s w =>
    let x := s.window f w
    if (x.unmapping.isNone && !x.shrunk) || s.writersRun x then s
    else match x.unmapping with
      | some r => (s.unmap f w).complete r ST.ok
      | none => s.unmap f w) s) s

end Sys2Proof.Machine
end

