-- ==== Sys2Proof/Machine/Ranges.lean ====
section
/-! DEFINITION. Memory by Valley address, as this chip has it (R243), and the parameter ranges of R151 that depend on a table of another chapter or on the device: AMOUNT, FORMAT, HEAD_DIM, LOCATION, LIST, RANK and OUT_ADDR. -/
namespace Sys2Proof.Machine
open Sys2Proof

/-! ### Memory by Valley address -/

/-- A byte at a Valley address, as far as this chip has it. -/
def State.vGet (s : State) (v : Nat) : Option Byte :=
  if s.isLocal v then some (s.rd8 (vLocal v))
  else (s.valley.views.find? fun e => e.1 == (vChip v, vLocal v)).map (·.2)

/-- `n` bytes from a Valley address; what this chip does not know of another chip's memory is free (log entry 1). -/
def State.vRd (s : State) (v n : Nat) : List Byte :=
  (List.range n).map fun i => (s.vGet (v + i)).getD (Config.remoteByte (vChip (v + i)) (vLocal (v + i)))
def State.vNat (s : State) (v n : Nat) : Nat := leNat (s.vRd v n)

/-- Granules of a range, by address. -/
def granules (v n : Nat) : List Nat :=
  if n = 0 then [] else (List.range ((v % 64 + n + 63) / 64)).map fun i => v / 64 * 64 + i * 64

/-- Granules of a remote range whose bytes this chip does not have. -/
def State.vMissing (s : State) (v n : Nat) : List Nat :=
  if s.isLocal v then [] else (granules v n).filter fun g => (List.range 64).any fun i => (s.vGet (g + i)).isNone

/-! ### Rates of Table 13-1 -/

/-- MB/s of a Pass port by its width code: 0 ×8, 1 ×4, 2 ×2. -/
def passRate (w : Nat) : Nat := 185000 / 2 ^ w

/-- MB/s of the PCIe link as trained. -/
def Hif.rateMB (h : Hif) : Nat := 112000 * h.width * (4 * 2 ^ h.rate) / 1024

/-- N of a resource. -/
def State.nominal (s : State) (kind i : Nat) : Nat :=
  match kind with
  | 0 => if (s.basin i).state == .failed then 0 else Config.basinRate
  | 1 => if (s.port i).state == .up then passRate (s.port i).width else 0
  | 2 => if bit s.boot.mediaOk.toNat i then 10000 else 0
  | _ => s.hif.rateMB

/-! ### KV pool geometry (R322) -/

def KvPool.pageSize (k : KvPool) : Nat := 2 ^ (14 + k.page)
def KvPool.row (k : KvPool) : Nat := k.dim * fmtBits k.format / 8
def KvPool.scales (k : KvPool) : Nat := if isMx k.format then k.dim / 32 else 0
/-- b: bytes of one position of one layer. -/
def KvPool.posBytes (k : KvPool) : Nat := 2 * k.heads * (k.row + k.scales)
/-- P: positions a page holds. -/
def KvPool.perPage (k : KvPool) : Nat := k.pageSize / k.posBytes

/-- Whether a byte of another chip lies in the backing of a KV pool. -/
def State.pooled (s : State) (chip a : Nat) : Bool :=
  s.kv.any fun k => k.exist && vChip k.backing == chip && vLocal k.backing ≤ a && a < vLocal k.backing + k.pages * k.pageSize

/-- Formats a pool may hold (R321). -/
def kvFormat (f : Nat) : Bool := f == 0x02 || f == 0x03 || f == 0x04 || f == 0x05 || isMx f

/-- The pool a KV_POOL_CREATE asks for. -/
def poolOfEntry (m : Nat) (e : Block) : KvPool :=
  { exist := true, part := mbPart m, page := eParam e 0 0 2, format := eParam e 1 0 8, heads := eParam e 2 0 16,
    dim := eParam e 4 0 16, pages := eParam e 8 0 32, backing := eParam e 16 0 64 }

/-! ### Units, lists and buffers -/

/-- A LOCATION that names a unit (Table 5-5, R474). -/
def locOk (typ loc : Nat) : Bool :=
  match typ with
  | 0x01 => loc < 128 && bits loc 4 3 ≤ 4
  | 0x02 => loc < 2 ^ 23
  | 0x03 => loc < 2 ^ 19
  | 0x04 => loc < 2 ^ 16
  | 0x05 => loc < 2 ^ 18 && [5, 6, 9, 10].contains (bits loc 0 4)
  | 0x06 => loc < 64
  | 0x07 => loc < 2 ^ 16
  | 0x08 => loc < 2 ^ 37 && bits loc 9 4 < 12
  | 0x09 => loc < 2 ^ 16
  | 0x0A => loc < 256 && bits loc 0 5 < 24
  | 0x0B => loc < 16
  | _ => loc < 2 ^ 16

/-- The LIST of a COLL_GROUP_CREATE, as far as its bytes are here. -/
def State.memberList (s : State) (e : Block) : List Nat :=
  (List.range (eParam e 4 0 13)).map fun i => s.vNat (eParam e 16 0 64 + 2 * i) 2

/-- Bytes of one output buffer (R403). -/
def outBytes (w h : Nat) : Nat := ceilDiv (4096 + w * h * 3) 4096 * 4096

/-! ### The ranges -/

/-- The byte offset of the first field out of range where the range is not a matter of the entry alone (step 4 of R151):
AMOUNT (R263), FORMAT and HEAD_DIM of a pool and the page that must hold a position (R321, R322), OUT_ADDR (R403), LOCATION
(R474), and LIST and RANK of a group once the bytes of LIST are here (R375). -/
def badRange (s : State) (m : Nat) (e : Block) : Option Nat :=
  let p := eParam e
  match eOpcode e with
  | 0x0503 => if p 4 0 32 = 0 || s.nominal (p 0 0 2) (p 1 0 5) < p 4 0 32 then some 20 else none
  | 0x0601 =>
    let k := poolOfEntry m e
    if !kvFormat k.format then some 17
    else if isMx k.format && k.dim % 32 != 0 then some 20
    else if k.perPage = 0 then some 16
    else none
  | 0x0903 =>
    let v := p 8 0 64
    if !s.isLocal v || !rangeOwned s (mbPart m) (vLocal v) (p 16 0 8 * outBytes (p 2 0 16) (p 4 0 16)) then some 24 else none
  | 0x0A20 =>
    let v := p 16 0 64
    let n := 2 * p 4 0 13
    let l := s.memberList e
    if 2 ^ 52 ≤ v || (s.isLocal v && !rangeOk s (mbPart m) (vLocal v) n) then some 32
    else if !(s.vMissing v n).isEmpty then none
    else if l[p 6 0 13]? != some s.chip then some 22
    else if !(l.Nodup : Bool) || l.any (4096 ≤ ·) then some 32
    else none
  | 0x0E02 => if !locOk (p 0 0 8) (p 8 0 64) then some 24 else none
  | _ => none

end Sys2Proof.Machine
end

