-- ==== Sys2Proof/Machine/Check.lean ====
section
/-! DEFINITION. The checks of R151 that need no family: opcode, mailbox permission with its narrowing modes, reserved fields and ranges, and the handle (R160, R161, chapter 08). -/
namespace Sys2Proof.Machine

/-- One field of a parameter block: byte offset, bit range, and the values it may hold. -/
structure Field where
  off : Nat
  lo : Nat
  w : Nat
  ok : Nat → Bool

/-- What TARGET must carry (Table 7-3). -/
inductive Target where
  | none | stream | sync | pool | enc | dec | group | part | window | acct
deriving DecidableEq, Repr

/-- A row of chapter 08: mailboxes, target, parameters, and the place of WINDOW and SLOT when it has them. -/
structure CmdSpec where
  admin : Bool
  part : Bool
  target : Target := .none
  fields : List Field := []
  slot : Option (Nat × Nat) := Option.none

/-- Any value. -/
def any (off lo w : Nat) : Field := ⟨off, lo, w, fun _ => true⟩
/-- A value in `[a, b]`. -/
def rng (off lo w a b : Nat) : Field := ⟨off, lo, w, fun v => a ≤ v && v ≤ b⟩
/-- A multiple of `k` in `[a, b]`. -/
def mul (off lo w k a b : Nat) : Field := ⟨off, lo, w, fun v => v % k == 0 && a ≤ v && v ≤ b⟩

/-- A handle: its bits [27:24] are reserved (Table 7-3). -/
def han (off : Nat) : Field := ⟨off, 0, 32, fun v => bits v 24 4 == 0⟩
/-- A field that the row's table names as reserved. -/
def rsv (off lo w : Nat) : Field := ⟨off, lo, w, fun v => v == 0⟩

/-- KiB and MiB. -/
def kib : Nat := 1024
def mib : Nat := 1048576

/-- The catalogue of chapter 08. -/
def catalogue : Nat → Option CmdSpec
  | 0x0101 => some { admin := true, part := true, fields := [rng 0 0 8 0 1] }
  | 0x0102 => some { admin := true, part := true, fields := [rng 0 0 8 0 4] }
  | 0x0103 => some { admin := true, part := true }
  | 0x0104 => some { admin := true, part := false, fields := [rng 0 0 1 1 1] }
  | 0x0105 => some { admin := true, part := false, fields := [rng 0 0 2 1 3] }
  | 0x0201 => some { admin := true, part := false, fields := [⟨0, 0, 8, fun v => v < 4 || v == 255⟩, any 1 0 1] }
  | 0x0202 => some { admin := true, part := false, fields := [any 0 0 2, any 1 0 6, any 2 0 12], slot := some (1, 2) }
  | 0x0203 => some { admin := true, part := false, fields := [any 0 0 2, any 1 0 6, any 2 0 12], slot := some (1, 2) }
  | 0x0301 => some { admin := true, part := false, fields :=
      [rng 0 0 32 1 0xFFFFFFFF, any 4 0 5, rng 5 0 8 0 100, rng 8 0 8 0 100, rng 9 0 8 0 100, rng 10 0 8 0 100,
       rng 11 0 8 0 100, any 32 0 5] }
  | 0x0302 => some { admin := true, part := false, target := .part }
  | 0x0303 => some { admin := true, part := false, target := .part }
  | 0x0304 => some { admin := true, part := false, target := .part }
  | 0x0401 => some { admin := false, part := true, fields :=
      [rng 0 0 2 0 2, any 0 2 1, any 1 0 3, any 1 3 1, any 2 0 16, rng 4 0 7 1 64, han 8] }
  | 0x0402 => some { admin := false, part := true, target := .stream, fields :=
      [any 0 0 64, rng 8 0 16 1 4096, any 10 0 1, any 16 0 64] }
  | 0x0403 => some { admin := false, part := true, target := .stream, fields := [any 0 0 32] }
  | 0x0404 => some { admin := false, part := true, target := .stream, fields := [any 0 0 1] }
  | 0x0405 => some { admin := false, part := true, target := .stream }
  | 0x0501 => some { admin := false, part := true, fields := [mul 0 0 64 4096 4096 (2 ^ 64), any 8 0 1, any 8 1 3] }
  | 0x0502 => some { admin := false, part := true, fields := [any 0 0 40] }
  | 0x0503 => some { admin := false, part := true, fields :=
      [any 0 0 2, any 1 0 5, rng 2 0 2 0 2, any 4 0 32, han 8] }
  | 0x0504 => some { admin := false, part := true, fields := [any 0 0 16] }
  | 0x0505 => some { admin := false, part := true, fields := [any 0 0 2, any 1 0 5] }
  | 0x0601 => some { admin := false, part := true, fields :=
      [rng 0 0 2 0 2, any 1 0 8, rng 2 0 16 1 64, rng 4 0 16 16 512, rng 8 0 32 1 16777216,
       mul 16 0 64 4096 0 (2 ^ 52 - 1)] }
  | 0x0602 => some { admin := false, part := true, target := .pool }
  | 0x0603 => some { admin := false, part := true, target := .stream, fields := [han 0, any 4 0 32] }
  | 0x0604 => some { admin := false, part := true, target := .stream, fields := [any 0 0 32] }
  | 0x0605 => some { admin := false, part := true, target := .stream, fields := [any 0 0 32] }
  | 0x0701 => some { admin := false, part := true, fields := [any 0 0 2, any 4 0 32] }
  | 0x0702 => some { admin := false, part := true, target := .sync }
  | 0x0703 => some { admin := false, part := true, target := .sync, fields := [han 0] }
  | 0x0704 => some { admin := false, part := true, target := .sync }
  | 0x0801 => some { admin := true, part := true, fields :=
      [any 0 0 6, rsv 0 6 2, any 1 0 1, rsv 1 1 1, rng 1 2 2 0 2, any 1 4 1, rsv 1 5 3, rng 2 0 16 1 4096, rng 4 0 5 12 26,
       rsv 4 5 3, any 5 0 6, any 5 6 1, rsv 5 7 1, rsv 6 0 16, mul 8 0 64 65536 0 (2 ^ 64), mul 16 0 40 4096 0 (2 ^ 40),
       rsv 16 40 24, mul 24 0 64 4096 0 (2 ^ 64), han 32, rsv 36 0 32] }
  | 0x0802 => some { admin := true, part := true, target := .window, fields := [any 0 0 1] }
  | 0x0901 => some { admin := false, part := true, fields :=
      [any 0 0 1, any 0 1 1, rng 0 2 2 0 2, rng 1 0 4 1 8, mul 2 0 16 8 64 8192, mul 4 0 16 8 64 4320, rng 6 0 8 1 120,
       rng 8 0 32 100 500000, ⟨12, 0, 16, fun v => v == 0 || (2 ≤ v && v ≤ 1024)⟩] }
  | 0x0902 => some { admin := false, part := true, target := .enc }
  | 0x0903 => some { admin := false, part := true, fields :=
      [rng 0 0 2 0 2, rng 2 0 16 1 8192, rng 4 0 16 1 4320, mul 8 0 64 4096 0 (2 ^ 52 - 1), rng 16 0 8 2 32] }
  | 0x0904 => some { admin := false, part := true, target := .dec }
  | 0x0905 => some { admin := false, part := true, target := .dec }
  | 0x0906 => some { admin := false, part := true, target := .enc }
  | 0x0907 => some { admin := false, part := true, target := .enc, fields :=
      [any 0 0 3, any 0 3 1, ⟨1, 0, 8, fun v => v ≤ 12 || 244 ≤ v⟩, mul 2 0 16 16 0 65535, mul 4 0 16 16 0 65535,
       mul 6 0 16 16 0 65535, mul 8 0 16 16 0 65535] }
  | 0x0908 => some { admin := false, part := true, target := .enc, fields :=
      [any 0 0 3, any 0 3 1, rng 0 4 2 0 2, rng 1 0 8 0 200, rng 2 0 2 0 2, han 4, any 8 0 64, any 16 0 16,
       any 18 0 16, any 20 0 16, any 22 0 16, any 24 0 8] }
  | 0x0A01 => some { admin := true, part := false, fields := [rng 0 0 5 0 23, any 0 5 1] }
  | 0x0A02 => some { admin := true, part := false, fields := [rng 0 0 5 0 23] }
  | 0x0A10 => some { admin := true, part := false, fields := [any 0 0 16, any 2 0 1] }
  | 0x0A11 => some { admin := true, part := false }
  | 0x0A12 => some { admin := true, part := false, fields :=
      [any 0 0 12, rng 2 0 5 0 23, any 2 7 1, rng 3 0 5 0 23, any 3 7 1, rng 4 0 5 0 23, any 4 7 1, rng 5 0 5 0 23,
       any 5 7 1, rng 6 0 5 1 16] }
  | 0x0A20 => some { admin := false, part := true, fields :=
      [any 0 0 32, rng 4 0 13 2 4096, rng 6 0 13 0 4095, rng 8 0 16 0 2000, any 16 0 64] }
  | 0x0A21 => some { admin := false, part := true, target := .group }
  | 0x0B01 => some { admin := true, part := true, target := .acct, fields := [rng 0 0 8 0 8] }
  | 0x0B02 => some { admin := true, part := false, target := .part, fields := [any 0 0 1] }
  | 0x0C01 => some { admin := true, part := true, fields := [any 0 0 256, any 32 0 6, any 34 0 12], slot := some (32, 34) }
  | 0x0C02 => some { admin := true, part := false, fields := [rng 0 0 2 1 2, any 2 0 6, any 4 0 12], slot := some (2, 4) }
  | 0x0C03 => some { admin := true, part := false, fields := [any 2 0 6, any 4 0 12], slot := some (2, 4) }
  | 0x0C04 => some { admin := true, part := false }
  | 0x0C05 => some { admin := true, part := false, fields := [rng 0 0 3 0 4, any 2 0 6, any 4 0 12], slot := some (2, 4) }
  | 0x0D01 => some { admin := true, part := false, slot := some (0, 2), fields :=
      [any 0 0 6, any 2 0 12, mul 4 0 32 4096 0 (2 ^ 32), mul 8 0 32 4096 4096 (31 * mib), mul 12 0 32 4096 8192 (31 * mib)] }
  | 0x0D02 => some { admin := true, part := false }
  | 0x0D03 => some { admin := true, part := false }
  | 0x0D04 => some { admin := true, part := false }
  | 0x0D05 => some { admin := true, part := false }
  | 0x0E01 => some { admin := true, part := false, fields := [any 0 0 6, any 2 0 12, any 4 0 12], slot := some (0, 2) }
  | 0x0E02 => some { admin := true, part := false, fields := [rng 0 0 8 1 12, any 8 0 64] }
  | 0x0E03 => some { admin := true, part := false, fields := [any 0 0 12] }
  | 0x0E04 => some { admin := true, part := false, fields := [any 0 0 3] }
  | 0x0F01 => some { admin := true, part := true, fields := [any 0 0 4] }
  | 0x0F02 => some { admin := true, part := false, fields := [any 0 0 4, any 1 0 1, rng 2 0 8 4 80, rng 3 0 8 4 80, any 4 0 8] }
  | 0x0F03 => some { admin := true, part := true, fields := [any 0 0 1, any 1 0 4] }
  | _ => none

/-! ### Reserved fields and ranges -/

/-- The bits of a parameter block that a row names. -/
def fieldMask (l : List Field) : Nat := l.foldl (fun m f => m ||| ((2 ^ f.w - 1) <<< (8 * f.off + f.lo))) 0

/-- The lowest set bit of a number below bit `n`. -/
def lowBit (v n : Nat) : Option Nat := (List.range n).find? fun i => v.testBit i

/-- The lowest of several offsets. -/
def lowest (l : List (Option Nat)) : Option Nat :=
  l.foldl (fun a b => match a, b with
    | none, b => b
    | a, none => a
    | some x, some y => some (min x y)) none

/-- The byte offset within the entry of the first offending field (R150): reserved fields of Table 7-2 and of
the row's table, bits of the parameter block that no table names, by the byte of the lowest (log entry 136), and fields out of
range. -/
def badField (sp : CmdSpec) (e : Block) : Option Nat :=
  let params := e.nat 16 0 320
  let rsv := params - (params &&& fieldMask sp.fields)
  lowest ([
    if e.nat 2 3 13 != 0 then some 2 else none,
    if e.nat 8 24 4 != 0 then some 8 else none,
    if e.nat 12 0 32 != 0 then some 12 else none,
    (lowBit rsv 320).map (fun i => 16 + i / 8),
    if e.nat 56 0 64 != 0 then some 56 else none] ++
    sp.fields.map (fun f => if f.ok (eParam e f.off f.lo f.w) then none else some (16 + f.off)))

/-- Ranges that join several fields of one entry, by opcode. -/
def badPair (op m : Nat) (e : Block) : Option Nat :=
  let p := eParam e
  let chk (b : Bool) (off : Nat) : Option Nat := if b then none else some (16 + off)
  match op with
  | 0x0401 => lowest [chk (p 0 2 1 == 0 || p 0 0 2 == 1) 0,
      if p 1 3 1 == 1 then chk (1 ≤ p 2 0 16 && p 2 0 16 ≤ 1024) 2 else lowest [chk (p 1 0 3 == 0) 1, chk (p 2 0 16 == 0) 2]]
  | 0x0503 => chk (p 1 0 5 ≤ match p 0 0 2 with | 0 => 7 | 1 => 23 | 2 => 15 | _ => 0) 1
  | 0x0505 => chk (p 1 0 5 ≤ match p 0 0 2 with | 0 => 7 | 1 => 23 | 2 => 15 | _ => 0) 1
  | 0x0701 => chk (match p 0 0 2 with | 1 => true | 2 => 2 ≤ p 4 0 32 && p 4 0 32 ≤ 4096 | _ => p 4 0 32 == 0) 4
  | 0x0801 => lowest [
      chk (2 ≤ p 5 0 6 && p 5 0 6 < if m = 0 then 64 else 32) 5,
      chk (p 1 2 2 != 2 || p 32 0 32 == 0) 32]
  | 0x0901 => lowest [chk (!(p 0 2 2 == 2 && p 0 0 1 == 1)) 0,
      -- R399: the parts a picture can be divided into; HEVC and AV1 units of 64 luma samples (log entry 19)
      chk (match p 0 2 2 with
        | 0 => p 1 0 4 * 256 ≤ p 2 0 16
        | _ => p 1 0 4 ≤ (p 4 0 16 + 63) / 64) 1]
  | 0x0903 => if p 0 0 2 == 2 then lowest [chk (p 2 0 16 ≤ 4096) 2, chk (p 4 0 16 ≤ 2304) 4] else none
  | 0x0908 => lowest [chk (p 2 0 2 != 1 || p 4 0 32 == 0) 4, chk (p 2 0 2 != 2 || p 8 0 64 == 0) 8]
  | 0x0A20 => chk (p 6 0 13 < p 4 0 13) 6
  | 0x0F03 => chk (p 0 0 1 == 0 || p 1 0 4 < 8) 1
  | _ => none

/-! ### Permission and its narrowing modes -/

/-- The commands that SERVICE leaves open on the admin mailbox (R84). -/
def serviceOpen (op : Nat) : Bool :=
  [0x0101, 0x0102, 0x0104].contains op || [0x08, 0x0C, 0x0D, 0x0E].contains (op / 256)

/-- Step 3 of R151: Table 7-8, then SERVICE (R84), Solram's ERROR (R408), the time after a lifecycle
transition (R413), a missing partition (R117), a TDI in ERROR (R123) and a reset that has closed admission
(R161). -/
def denied (s : State) (m op : Nat) (sp : CmdSpec) : Option Nat :=
  if !(if m = 0 then sp.admin else sp.part) then some ST.mbxDenied
  else if s.boot.stage == .service && !(m == 0 && serviceOpen op) then some ST.serviceMode
  else if s.sec.error && op != 0x0101 then some ST.secDenied
  else if s.sec.lifecycleSet && op != 0x0101 && op != 0x0102 then some ST.secDenied
  else if m = 0 then none
  else if !(s.part (mbPart m)).exist then some ST.noPartition
  else if (s.fn m).tdi == 3 then some ST.secDenied
  else if (s.part (mbPart m)).step != 0 then some ST.partitionResetting
  else none

/-! ### Handles (R141) -/

/-- A stream of a partition by its handle. -/
def State.streamOf (s : State) (p h : Nat) : Option Stream :=
  if hType h == 1 && bits h 22 6 == 0 then
    (s.stream? (bits h 0 14)).filter fun x => x.owner == p && x.gen == bits h 14 8
  else none

/-- A sync object of a partition by its handle. -/
def State.syncOf (s : State) (p h : Nat) : Option SyncObj :=
  if hType h == 2 && bits h 18 10 == 0 then
    (s.sobj? (bits h 0 10)).filter fun x => x.part == p && x.gen == bits h 10 8
  else none

/-- A KV pool of a partition by its handle: its number. -/
def State.poolOf (s : State) (p h : Nat) : Option Nat :=
  let n := bits h 0 3
  if hType h == 3 && bits h 11 17 == 0 && (s.pool n).exist && (s.pool n).part == p && (s.pool n).gen == bits h 3 8
  then some n else none

/-- A video output or decoder context of a partition by its handle; decoders count from 2,048 (log entry 20). -/
def State.encOf (s : State) (p h : Nat) : Option Enc :=
  if hType h == 4 && bits h 24 4 == 0 then s.media.encs.find? fun x => x.index == hObj h && x.part == p else none
def State.decOf (s : State) (p h : Nat) : Option Dec :=
  if hType h == 4 && bits h 24 4 == 0 then s.media.decs.find? fun x => x.index + 2048 == hObj h && x.part == p else none

/-- A collective group of a partition by its handle. -/
def State.groupOf (s : State) (p h : Nat) : Option Group :=
  if hType h == 5 && bits h 24 4 == 0 then s.coll.groups.find? fun x => x.index == hObj h && x.part == p else none

/-- Step 5 of R151: TARGET as the row asks. -/
def goodHandle (s : State) (m h : Nat) : Target → Bool
  | .none => h == 0
  | .stream => (s.streamOf (mbPart m) h).isSome
  | .sync => (s.syncOf (mbPart m) h).isSome
  | .pool => (s.poolOf (mbPart m) h).isSome
  | .enc => (s.encOf (mbPart m) h).isSome
  | .dec => (s.decOf (mbPart m) h).isSome
  | .group => (s.groupOf (mbPart m) h).isSome
  | .part => hType h == 6 && m == 0 && (s.part (hObj h)).exist
  | .window => hType h == 7 && (s.window m (hObj h)).mapped
  | .acct =>
    if m = 0 then hType h == 6 && (s.part (hObj h)).exist
    else h == 0 || (s.streamOf (mbPart m) h).isSome

/-- The CMD slot an entry names (R162): one of the function's windows with BIND CMD, owned by DEVICE and
held by no other command. -/
def State.cmdSlot (s : State) (m : Nat) (e : Block) : Option (Nat × Nat) :=
  match (catalogue (eOpcode e)).bind (·.slot) with
  | none => none
  | some (wo, so) =>
    let w := eParam e wo 0 6
    let i := eParam e so 0 12
    let x := s.window m w
    if x.mapped && x.bind == 2 && i < x.count && (x.slot i).owner == 2 &&
        !(s.mb m).taken.any (fun t => t.slot == some (w, i)) then some (w, i) else none

/-- Whether the CMD slot an entry names holds a poisoned granule: taking it poisons the slot (R137). -/
def State.cmdPoison (s : State) (m : Nat) (e : Block) : Bool :=
  (s.cmdSlot m e).any fun k => s.anyPoison ((s.window m k.1).slotAddr k.2) (s.window m k.1).slotSize

/-- An entry offered with the CMD slot it names; a slot that holds poison is set POISONED in place of being taken. -/
def State.offerCmd (s : State) (m : Nat) (e : Block) : State × Bool :=
  if s.cmdPoison m e then
    let (t, ok) := s.offer m e none
    match s.cmdSlot m e with
    | some (w, i) => (if (s.taken ⟨m, eId e⟩).isNone && (t.taken ⟨m, eId e⟩).isSome then t.poisonSlot m w i 0 else t, ok)
    | none => (t, ok)
  else s.offer m e (s.cmdSlot m e)

/-- An admin command that targets a partition in reset and is neither PART_RESET, PART_DESTROY nor PART_QUERY: taken and held
until READY (Hard corners of chapter 08, Table 11-2). -/
def State.heldAdmin (s : State) (m : Nat) (c : Cmd) : Bool := m == 0 && hType c.target.toNat == 6 && (s.part (hObj c.target.toNat)).step != 0

/-- Steps 2 to 5 of R151 for a taken entry: the status and RESULT of the first check that fails. -/
def precheck (s : State) (m : Nat) (e : Block) : Option (Nat × Nat) :=
  match catalogue (eOpcode e) with
  | none => some (ST.unknownOpcode, 0)
  | some sp =>
    match denied s m (eOpcode e) sp with
    | some st => some (st, 0)
    | none => match lowest [badField sp e, badPair (eOpcode e) m e, badRange s m e] with
      | some off => some (ST.invalidArg, off)
      | none => if goodHandle s m (eTarget e) sp.target then none else some (ST.badHandle, 0)

/-! ### Taking, turns and the CP's restart -/

/-- The entry at MBX_SQ_HEAD taken, whose 64 bytes host memory gives, where one is posted and the engine takes it; the answer says
whether it was dealt with. -/
def State.takeNext (s : State) (m : Nat) (e : Block) : State × Bool :=
  if !(s.mb m).posted then (s, false)
  else match s.offerCmd m e with
    | (s, true) => (s.updMb m fun b => { b with sqHead := (b.sqHead + 1) % ringSize b.sqSize }, true)
    | x => x

/-- A command's entry as its row presents it: taken already, or the next of its ring and taken now (log entry 21). -/
def State.present (s : State) (r : Req) (e : Block) : State := if (s.taken r).isSome then s else (s.takeNext r.m e).1

/-- The CP interprets commands: it runs, and not every control core is halted (R156, R458). -/
def State.cpReads (s : State) : Bool := s.cpUp && s.halts != 15

/-- The first command of a mailbox that is neither WAITING nor complete: the one whose turn it is (R154). -/
def Mailbox.turn (b : Mailbox) : Option Taken := b.taken.find? (!·.waiting)

/-- Commands that are refused by steps 2 to 5 of R151 are answered as their turn comes, whether or not a row of the table stands
for them: an entry with an unknown OPCODE or a reserved header bit has none. -/
def State.refuseN (m : Nat) : Nat → State → State
  | 0, s => s
  | n + 1, s =>
    match (s.mb m).turn with
    | none => s
    | some t =>
      if !s.cpReads || t.done.isSome then s
      else match precheck s m t.entry with
        | some (st, res) => State.refuseN m n (s.complete ⟨m, eId t.entry⟩ st res)
        | none => s

def State.refuseDue (s : State) (m : Nat) : State := State.refuseN m (s.mb m).taken.length s

/-- A DEV_POWER_STATE waits while another's entry is under way, and one that names STBY or OFF in QSC until the chip is ACTIVE
(R70, R71). -/
def State.powerHeld (s : State) (params : Nat) : Bool :=
  s.power.entry.isSome || (s.power.chip == .qsc && bits params 0 2 != 1)

/-- A taken command that the device holds back for a state of the device, so that commands of other mailboxes need not wait for
it: an ACCT command to a partition in reset, or a DEV_POWER_STATE in or on the way to QSC (DEDUCED, log entry 161). -/
def State.heldBack (s : State) (m : Nat) (t : Taken) : Bool :=
  m == 0 && match eOpcode t.entry with
    | 0x0B01 | 0x0B02 => hType (eTarget t.entry) == 6 && (s.part (hObj (eTarget t.entry))).step != 0
    | 0x0105 => s.powerHeld (t.entry.nat 16 0 320)
    | _ => false

/-- Between mailboxes commands are committed in stamp order, and at equal stamps the admin mailbox goes first, then partition
mailboxes in ascending number (R154): no other mailbox has a command to commit before this one. -/
def State.inTime (s : State) (m stamp : Nat) : Bool :=
  (List.range 33).all fun k => k == m || (s.mb k).taken.all fun t =>
    t.waiting || t.done.isSome || s.heldBack k t || stamp < t.stamp || (stamp == t.stamp && m < k)

/-- A CPR begins: CP_UP falls, taken commands will carry CPR, and HWM goes back to what is persisted (R429). The third within 60 s
of the first of them is final: CP_FAILED, FAULT_N, EV_CP_FAILED on every ring. -/
def State.cpr (s : State) : State :=
  let l := (s.cp.restarts ++ [s.now]).drop (s.cp.restarts.length + 1 - 3)
  let final := l.length = 3 && s.now < l.headD 0 + 60000000000
  let s := { s with
    cp := { s.cp with up := false, failed := final, restarts := l },
    mbx := s.mbx.map fun (b : Mailbox) => ({ b with taken := b.taken.map fun t => { t with cpr := true } } : Mailbox),
    fw := { s.fw with hwm := s.fw.persisted } }
  if final then s.fault.emit allRings EV.cpFailed 1 (final := true) else s

/-- A command committed as a CP exception comes before its completion (R158): what the commit answers is kept in the journal, and
the CPR begins. A command left WAITING goes on with its hardware. -/
def State.cutShort (s : State) (r : Req) (eff : State → State) : State :=
  let s := eff (s.updTaken r fun t => { t with deferred := true })
  (s.updTaken r fun t => { t with deferred := t.done.isSome }).cpr

/-- What the CP finds COMMITTED in the journal is completed (R158). -/
def State.deliverDone (s : State) : State :=
  (List.range 33).foldl (fun s m => (s.mb m).taken.foldl (fun s t => match t.done with
    | some (st, res) => s.writeDone ⟨m, eId t.entry⟩ t st res
    | none => s) s) s

/-- Whether a taken command of a row cannot be interpreted now: it has been committed, it is another row's, the CP does not read
it, or its turn in its ring or among the mailboxes has not come. -/
def State.notYet (s : State) (m : Nat) (c : Cmd) (e : Block) (t : Taken) : Bool :=
  t.waiting || t.done.isSome || !sameEntry t.entry e || !s.cpReads || !(s.mb m).inTurn c.reqId || !s.inTime m t.stamp

/-- A command in the journal interpreted where it can be: the checks of R151 answer, `chk` being the family's part of step 6, or
the command commits `eff`. One already committed is left alone, and one whose turn has not come waits for it (R154). Refusals whose
turn comes with it follow. -/
def interpret (op m : Nat) (c : Cmd) (s : State) (chk : State → Block → Taken → Option (Nat × Nat))
    (eff : State → Req → Taken → State) : State :=
  let r : Req := ⟨m, c.reqId⟩
  let e := entryOf c op
  match s.taken r with
  | none => s
  | some t =>
    if s.notYet m c e t then s
    else
      let s := match precheck s m e with
        | some (st, res) => s.complete r st res
        | none => match chk s e t with
          | some (st, res) => s.complete r st res
          | none => if c.cut then s.cutShort r (eff · r t) else eff s r t
      s.refuseDue m

/-- The frame of a Lolin command row. Its entry is the one taken with its REQ_ID, or is taken now where it is the next of its
ring (log entry 21); then it is interpreted. -/
def lolin (op m : Nat) (c : Cmd) (s : State) (chk : State → Block → Taken → Option (Nat × Nat))
    (eff : State → Req → Taken → State) : State :=
  interpret op m c (s.present ⟨m, c.reqId⟩ (entryOf c op)) chk eff

/-- No further check. -/
def noCheck (_ : State) (_ : Block) (_ : Taken) : Option (Nat × Nat) := none

/-- ST_FORD_NOT_OWNED when the slot a command names was not taken (R162). -/
def slotCheck (_ : State) (_ : Block) (t : Taken) : Option (Nat × Nat) :=
  if t.slot.isSome then none else some (ST.fordNotOwned, 0)

/-- ST_STREAM_CLOSING for a stream that STREAM_CLOSE was taken for or that is torn down (R168, R208). -/
def closingCheck (s : State) (m : Nat) (e : Block) : Option (Nat × Nat) :=
  match s.streamOf (mbPart m) (eTarget e) with
  | some x => if x.state == .opened then none else some (ST.streamClosing, 0)
  | none => none

end Sys2Proof.Machine
end

