-- ==== Sys2Proof/Machine/Link.lean ====
section
/-! DEFINITION. Coeno messages: their bytes (R356), the route a message leaves on (R367), requests with their tags (R361), responses, floods, and what a port holds in reception (R357, R368). -/
namespace Sys2Proof.Machine
open Sys2Proof

/-! ### Message types and their channels (Table 19-4) -/

def mRdReq : Nat := 0x01
def mWrReq : Nat := 0x02
def mSyncOp : Nat := 0x03
def mRdRsp : Nat := 0x11
def mWrAck : Nat := 0x12
def mSyncRsp : Nat := 0x13
def mRefuse : Nat := 0x14
def mHold : Nat := 0x15
def mRelease : Nat := 0x16
def mCollData : Nat := 0x21
def mCollCtrl : Nat := 0x22
def mHeartbeat : Nat := 0x31
def mJoin : Nat := 0x32
def mLeave : Nat := 0x33
def mLoss : Nat := 0x34
def mOwnerNotice : Nat := 0x35

/-- The virtual channel of a type: 0 REQ, 1 RSP, 2 COLL, 3 MGMT. -/
def vcOf (t : Nat) : Nat := min (t / 16) 3

/-- Data bytes that follow the header: none for RD_REQ, whose LEN is what it asks for; 32 of operand for
SYNC_OP; else LEN granules. -/
def msgData (t len : Nat) : Nat := if t = mRdReq then 0 else if t = mSyncOp then 32 else len * 64

/-- Bytes padded with zeros to a length. -/
def padTo (n : Nat) (l : List Byte) : List Byte := (l ++ List.replicate (n - l.length) 0).take n

/-- The bytes of a message (Table 19-3). -/
def msgBytes (g : Msg) : List Byte :=
  leBytes 1 g.typ ++ leBytes 1 (b2n g.ext.isSome + 2 * b2n g.lc) ++
  leBytes 3 (g.src % 4096 + g.dst % 4096 * 4096) ++ leBytes 1 (g.hops % 32) ++ leBytes 2 g.tag ++
  leBytes 8 (g.addr % 2 ^ 40 + g.len % 128 * 2 ^ 40 + g.part % 64 * 2 ^ 47) ++
  (match g.ext with
    | some (d, h) => leBytes 8 d ++ leBytes 4 h ++ leBytes 4 0
    | none => []) ++
  padTo (msgData g.typ g.len) g.data

/-- The message at the front of a byte sequence, once it is there whole. -/
def msgParse (l : List Byte) : Option Msg :=
  if l.length < 16 then none else
  let n (o k : Nat) := leNat ((l.drop o).take k)
  let e := bit (n 1 1) 0
  let a := n 8 8
  let len := bits a 40 7
  let h := if e then 32 else 16
  let d := msgData (n 0 1) len
  if l.length < h + d then none else
  some { typ := n 0 1, lc := bit (n 1 1) 1, ext := if e then some (n 16 8, n 24 4) else none,
         src := bits (n 2 3) 0 12, dst := bits (n 2 3) 12 12, hops := bits (n 5 1) 0 5, tag := n 6 2,
         addr := bits a 0 40, len := len, part := bits a 47 6, data := (l.drop h).take d }

/-! ### Routes -/

/-- The route entry of a destination. -/
def State.route (s : State) (dst : Nat) : Option Route := s.valley.routes.find? (·.dest == dst)

/-- A port that carries traffic: UP and not waiting for a retrain (R98). -/
def Port.live (x : Port) : Bool := x.state == .up && x.queued.isNone

/-- Ports of a route that are valid and UP; a port toward another Valley carries MGMT only (R366). -/
def State.upPorts (s : State) (r : Route) : List Nat :=
  r.ports.filter fun p => (s.port p).live && !(s.port p).otherValley

/-- Whether this chip holds a chip for lost (R373). -/
def State.isLost (s : State) (c : Nat) : Bool := s.valley.expelled || s.valley.lost.any (·.1 == c)

/-- A message queued on a port, one hop further. -/
def State.sendPort (s : State) (p : Nat) (g : Msg) : State :=
  s.updPort p fun x => { x with txq := x.txq ++ [{ g with hops := g.hops + 1 }] }

/-- EV_ROUTE_LOOP, at most once per destination per second (R368). Its PAYLOAD holds the destination in
bytes 0 and 1 (log entry 18). -/
def State.routeLoop (s : State) (dst : Nat) : State :=
  match s.route dst with
  | some r =>
    if r.loopAt.all (fun t => t + 1000000000 ≤ s.now) then
      let s := s.emit [0] EV.routeLoop 2 0 (pay [(0, dst)])
      { s with valley := { s.valley with routes := s.valley.routes.map fun x =>
          if x.dest == dst then { x with loopAt := some s.now } else x } }
    else s
  | none => s.emit [0] EV.routeLoop 2 0 (pay [(0, dst)])

/-- A message on the route of its DST (R367): on the k-th of the valid UP ports, k = TAG mod their number.
Without one it goes nowhere, and the requester's timer sends it again. One that would exceed the HOPS limit is
discarded; the answer is whether it was. -/
def State.route1 (s : State) (g : Msg) : State × Bool :=
  match s.route g.dst with
  | none => (s, false)
  | some r =>
    if r.hops < g.hops + 1 then (s, true)
    else
      let ps := s.upPorts r
      match ps[g.tag % ps.length]? with
      | some p => (s.sendPort p g, false)
      | none => (s, false)

/-- The REFUSE that answers a message, its status in the first two bytes of data (log entry 22). -/
def refusal (g : Msg) (status : Nat) : Msg :=
  { typ := mRefuse, lc := g.lc, src := g.dst, dst := g.src, tag := g.tag, len := 1, part := g.part,
    data := padTo 64 (leBytes 2 status) }

/-- A message sent. A request that its HOPS limit discards is answered with REFUSE, whose status the spec
does not name (log entry 22); a request of this chip's own finds that answer among its own responses. -/
def State.send (s : State) (g : Msg) : State :=
  let (s, dropped) := s.route1 g
  if !dropped then s
  else
    let s := s.routeLoop g.dst
    if vcOf g.typ = 0 then
      let (v, s) := s.free
      let r := refusal g (v % 2 ^ 16)
      if g.src = s.chip then { s with valley := { s.valley with selfRsp := s.valley.selfRsp ++ [r] } }
      else (s.route1 r).1
    else s

/-- A message to every UP port but one, addressed to the neighbour there (R366, R373). -/
def State.flood (s : State) (g : Msg) (skip : Option Nat) : State :=
  (List.range 24).foldl (fun s p =>
    if (s.port p).live && skip != some p then s.sendPort p { g with dst := (s.port p).peer } else s) s

/-! ### Requests of this chip (R361, R363) -/

/-- The next TAG of a destination, unless 32,768 are outstanding or the tag in turn is still held (R361). -/
def State.tagFor (s : State) (dst : Nat) : Option Nat :=
  let n := (s.valley.nextTag.find? (·.1 == dst)).elim 0 (·.2)
  let out := s.valley.outstanding.filter (·.msg.dst == dst)
  let due := s.ports.any fun x => x.txq.any fun g => g.typ == mRelease && g.dst == dst && g.tag == n
  if out.length < 32768 && !out.any (·.msg.tag == n) && !due then some n else none

/-- The epoch of a master's tags (R233). -/
def State.epochOf (s : State) (kind unit : Nat) : Nat :=
  ((s.sched.masters.find? fun x => x.kind == kind && x.unit == unit).map (·.epoch)).getD 0

/-- A master reset: its tags' epoch rises, modulo 16, and its drain begins (R233, R234). -/
def State.resetMaster (s : State) (kind unit : Nat) : State :=
  let x : Master := { kind := kind, unit := unit, epoch := (s.epochOf kind unit + 1) % 16, resetAt := some s.now }
  { s with sched := { s.sched with masters := x :: s.sched.masters.filter fun x => !(x.kind == kind && x.unit == unit) } }

/-- The masters of a half-plain reset: its DMA engine and its load/store units. -/
def State.resetHalf (s : State) (h : Nat) : State := (s.resetMaster 0 h).resetMaster 1 h

/-- The drain of a master's reset over. -/
def State.masterDone (s : State) (kind unit : Nat) : State :=
  { s with sched := { s.sched with masters := s.sched.masters.map fun (x : Master) =>
      (if x.kind == kind && x.unit == unit then { x with resetAt := none } else x) } }

/-- Reads and writes of descriptors given up: those without a tag are dropped, and the read tags of the others are tombstoned, so
that their responses are absorbed (R233). -/
def State.tombstone (s : State) (f : Nat × Nat → Bool) : State :=
  { s with valley := { s.valley with
      queued := s.valley.queued.filter fun q => !(q.2.any f && q.1.typ != mSyncOp),
      outstanding := s.valley.outstanding.map fun (o : Outstanding) =>
        (if o.job.any f && o.msg.typ != mSyncOp then
          { o with job := none, tomb := if o.msg.typ == mRdReq then some s.now else o.tomb } else o) } }

/-- Every request of descriptors given up, sync operations among them. -/
def State.giveUp (s : State) (f : Nat × Nat → Bool) : State :=
  let s := s.tombstone f
  { s with valley := { s.valley with
      queued := s.valley.queued.filter fun q => !q.2.any f,
      outstanding := s.valley.outstanding.map fun (o : Outstanding) => (if o.job.any f then { o with job := none } else o) } }

/-- Whether a response comes for a tag whose master has been reset since (R233): tombstoned, or of an epoch that has passed. -/
def State.absorbs (s : State) (o : Outstanding) : Bool :=
  o.tomb.isSome || o.unit.any fun u => o.epoch != s.epochOf 0 u

/-- The dispatched descriptor `d` of stream `i`. -/
def State.runAt (s : State) (i d : Nat) : Option Run := s.sched.runs.find? fun r => r.s == i && r.d == d

/-- The half-plain whose DMA engine sends a descriptor's requests. -/
def State.unitOf (s : State) (job : Option (Nat × Nat)) : Option Nat := job.bind fun j => (s.runAt j.1 j.2).bind (·.hps.head?)

/-- A request sent, its tag held and its timer started; one that finds no tag waits for one. The response space of R357 is the State
that takes the answer, which has room for every one (log entry 162). -/
def State.request (s : State) (g : Msg) (job : Option (Nat × Nat)) : State :=
  match s.tagFor g.dst with
  | none => { s with valley := { s.valley with queued := s.valley.queued ++ [(g, job)] } }
  | some t =>
    let g := { g with src := s.chip, tag := t }
    let u := s.unitOf job
    let o : Outstanding := { msg := g, since := s.now, job := job, unit := u, epoch := u.elim 0 (s.epochOf 0) }
    let s := { s with valley := { s.valley with
        nextTag := (g.dst, (t + 1) % 65536) :: s.valley.nextTag.filter (·.1 != g.dst),
        outstanding := s.valley.outstanding ++ [o] } }
    s.send g

/-- The outstanding request of a (destination, tag) pair. -/
def State.outst (s : State) (dst tag : Nat) : Option Outstanding :=
  s.valley.outstanding.find? fun o => o.msg.dst == dst && o.msg.tag == tag

/-- A tag given up. -/
def State.dropOut (s : State) (dst tag : Nat) : State :=
  { s with valley := { s.valley with
      outstanding := s.valley.outstanding.filter fun o => !(o.msg.dst == dst && o.msg.tag == tag) } }

/-- A request changed in place. -/
def State.updOut (s : State) (dst tag : Nat) (f : Outstanding → Outstanding) : State :=
  { s with valley := { s.valley with outstanding := s.valley.outstanding.map fun o =>
      if o.msg.dst == dst && o.msg.tag == tag then f o else o } }

/-- The tag of a response released: RELEASE to the target carries it (R361). A request that waits for a tag
takes its turn. -/
def State.releaseTag (s : State) (dst tag : Nat) : State :=
  let s := (s.dropOut dst tag).send { typ := mRelease, src := s.chip, dst := dst, tag := tag }
  match s.valley.queued with
  | [] => s
  | (g, job) :: r => State.request { s with valley := { s.valley with queued := r } } g job

/-- A response to a request, routed by this chip's own entry for its SRC (R367). -/
def State.respond (s : State) (g : Msg) (typ : Nat) (data : List Byte) : State :=
  s.send { typ := typ, lc := g.lc, src := s.chip, dst := g.src, tag := g.tag, part := g.part, addr := g.addr,
           len := (data.length + 63) / 64, data := padTo ((data.length + 63) / 64 * 64) data }

/-- A refusal sent back (R369). -/
def State.refuseMsg (s : State) (g : Msg) (status : Nat) : State := s.respond g mRefuse (leBytes 2 status)

/-- A response recorded for its request (R362). -/
def State.dedup (s : State) (g : Msg) (typ : Nat) (data : List Byte) : State :=
  let r : Msg := { typ := typ, lc := g.lc, src := s.chip, dst := g.src, tag := g.tag, part := g.part, addr := g.addr,
                   len := (data.length + 63) / 64, data := padTo ((data.length + 63) / 64 * 64) data }
  { s with valley := { s.valley with
      dedup := s.valley.dedup ++ [{ src := g.src, tag := g.tag, response := r, made := s.now }],
      heldReqs := s.valley.heldReqs.filter fun h => !(h.1.src == g.src && h.1.tag == g.tag) } }

/-- The entry a request matches. -/
def State.dedupOf (s : State) (g : Msg) : Option Dedup :=
  s.valley.dedup.find? fun d => d.src == g.src && d.tag == g.tag

/-! ### Reception -/

/-- Padding skipped: a TYPE of zero fills what is left of its flit (log entry 23). -/
def skipPad (l : List Byte) : List Byte :=
  match l with
  | [] => []
  | b :: _ => if b = 0 then l.drop (if l.length % 236 = 0 then 236 else l.length % 236) else l

/-- `n` bytes taken from a VC's reception buffer; each flit emptied returns a credit (R357). -/
def Port.eat (x : Port) (vc n : Nat) : Port :=
  let old := x.rx.getD vc []
  let new := skipPad (old.drop n)
  { x with
    rx := updAt x.rx vc (fun _ => new),
    owed := updAt x.owed vc (· + ((old.length + 235) / 236 - (new.length + 235) / 236)) }

/-- The whole message at the front of a VC of a port. -/
def State.front (s : State) (p vc : Nat) : Option Msg := msgParse ((s.port p).rx.getD vc [])

/-- A message that is not addressed to this chip sent on, or discarded at HOPS 16 (R368). -/
def State.forward (s : State) (g : Msg) : State :=
  if 16 ≤ g.hops then
    let s := s.routeLoop g.dst
    if vcOf g.typ = 0 then
      let (v, s) := s.free
      s.send (refusal g (v % 2 ^ 16))
    else s
  else s.send g

/-- Messages at the front of a VC that are not for this chip passed on, and those of a lost chip other than
JOIN discarded (R368, R374), `n` of them at most. -/
def State.transit (s : State) (p vc : Nat) : Nat → State
  | 0 => s
  | n + 1 =>
    match s.front p vc with
    | none => s
    | some g =>
      if g.dst != s.chip then
        State.transit ((s.updPort p fun x => x.eat vc (msgBytes g).length).forward g) p vc n
      else if s.isLost g.src && g.typ != mJoin then
        State.transit (s.updPort p fun x => x.eat vc (msgBytes g).length) p vc n
      else s

/-- Transit over the whole buffer: every message has at least 16 bytes. -/
def State.transitAll (s : State) (p vc : Nat) : State := s.transit p vc (((s.port p).rx.getD vc []).length / 16)

/-- A message that arrives at port `p` for this chip, taken from the port's buffer where it stands at the
front (log entry 24): `f` is what it does. A port that is not UP takes none but those that stand in its buffer; one
toward another Valley takes MGMT only; a lost chip's messages other than JOIN are discarded (R374). -/
def State.arrive (s : State) (p : Nat) (g : Msg) (f : State → State) : State :=
  let vc := vcOf g.typ
  let mine := s.front p vc == some g
  if !(s.port p).live && !mine then s else
  if (s.port p).otherValley && vc != 3 then s else
  let s := if mine then s.updPort p fun x => x.eat vc (msgBytes g).length else s
  let s := if g.dst != s.chip && vc != 3 then s.forward g
    else if s.isLost g.src && g.typ != mJoin then s
    else f s
  if mine then s.transitAll p vc else s

end Sys2Proof.Machine
end

