-- ==== Sys2Proof/Machine/Sync.lean ====
section
/-! DEFINITION. Sync objects (R221 to R229): waits, signals, abandonment and breaking, grants to local and remote waiters, and what undoing a leading wait does (R186). Streams' counters and the start of a teardown stand here too. -/
namespace Sys2Proof.Machine
open Sys2Proof

/-! ### Streams -/

/-- The job at the head of a stream, unless a KV command stands before it (R169). -/
def Stream.head? (x : Stream) : Option Job :=
  match x.items with
  | .job j :: _ => some j
  | _ => none

def Stream.updHead (x : Stream) (f : Job → Job) : Stream :=
  match x.items with
  | .job j :: r => { x with items := .job (f j) :: r }
  | _ => x

/-- The listed stream of a handle. -/
def State.byHandle (s : State) (h : Nat) : Option Stream :=
  (s.stream? (bits h 0 14)).filter fun x => x.handle == h

/-- Whether a partition accounts in FULL (R210). -/
def State.full (s : State) (p : Nat) : Bool := !(s.part p).acctCount

/-- A counter of a stream raised; 3 to 7 only in FULL (Table 8-13). -/
def State.count (s : State) (i k n : Nat) : State :=
  match s.stream? i with
  | some x =>
    if 3 ≤ k && k ≤ 7 && !s.full x.owner then s
    else s.updStream i fun x => { x with counters := updAt x.counters k (fun c => (c + n) % 2 ^ 64) }
  | none => s

/-- A dispatched descriptor that stops holding half-plains: counter 3 takes 2 × n × ns (Table 10-6). -/
def State.chargeRun (s : State) (r : Run) : State := s.count r.s 3 (2 * r.hps.length * (s.now - r.since))

/-- A descriptor ended: its half-plains are free. -/
def State.endRun (s : State) (i d : Nat) : State :=
  match s.runAt i d with
  | some r =>
    let s := s.chargeRun r
    { s with sched := { s.sched with runs := s.sched.runs.filter fun r => !(r.s == i && r.d == d) } }
  | none => s

/-- The correction factor of a partition for an OP (R198), 1 at the start. -/
def State.alphaOf (s : State) (p op : Nat) : Rat :=
  match s.sched.alpha.find? (fun a => a.1 == (p, op)) with
  | some (_, a) => a
  | none => 1

/-- How long a descriptor has held its half-plains. -/
def State.ranFor (s : State) (r : Run) : Nat := r.ran + if r.hps.isEmpty then 0 else s.now - r.since

/-- α of R198 moved by the actual duration of a descriptor that ends against its prediction without α. -/
def State.learn (s : State) (r : Run) : State :=
  if r.base ≤ 0 then s
  else
    let a := s.alphaOf r.part r.op
    let b : Rat := a + ((s.ranFor r : Rat) / r.base - a) / 16
    let c : Rat := if b < 3 / 4 then 3 / 4 else if 4 < b then 4 else b
    { s with sched := { s.sched with alpha := ((r.part, r.op), c) :: s.sched.alpha.filter (·.1 != (r.part, r.op)) } }

/-- A dispatched descriptor that ends, by its last write, a fault or an abort: α learns from it, and its half-plains are free. -/
def State.endDesc (s : State) (i d : Nat) : State :=
  match s.runAt i d with
  | some r => (s.learn r).endRun i d
  | none => s

/-- The masters of a descriptor reset with its stream (R233): those of the half-plains it holds; its own requests are given
up. -/
def State.cutMasters (s : State) (i d : Nat) : State :=
  match s.runAt i d with
  | some r => (r.hps.foldl State.resetHalf s).tombstone (· == (i, d))
  | none => s.tombstone (· == (i, d))

/-- A stream's teardown begins (R208): cause, descriptor and job are kept for its event. A fault takes the
place of a close (Hard corners of chapter 10); of two faults the first stands. What of it still runs does so to its end, but where
its partition is in reset. -/
def State.beginTeardown (s : State) (i cause d job : Nat) : State :=
  let inReset := (s.stream? i).any fun x => (s.part x.owner).step != 0
  let s := if inReset then s
    else { s with sched := { s.sched with runs := s.sched.runs.map fun (r : Run) => if r.s == i then { r with marked := false } else r } }
  s.updStream i fun x =>
    { x with
      state := .teardown,
      endCause := match x.endCause with
        | none => some (cause, d, job)
        | some (0, _, _) => some (cause, d, job)
        | some e => some e }

/-- A job faults (R191): the descriptor that faults ends at once and the stream's teardown begins. -/
def State.faultJob (s : State) (i cause d : Nat) : State :=
  match s.stream? i with
  | none => s
  | some x => ((s.cutMasters i d).endDesc i d).beginTeardown i cause d ((x.head?.map (·.number)).getD 0)

/-! ### One object -/

/-- What a wait is answered: 0 satisfied, 1 satisfied on an ABANDONED lock, 2 broken barrier; and whether a
lock was already the owner's, so that nothing was acquired (R186). -/
structure Grant where
  who : Waiter
  result : Nat
  kept : Bool := false
deriving DecidableEq, Repr

/-- Waiters of a SEM served in order while the count suffices (R227). -/
def SyncObj.serveSem : List Waiter → SyncObj → SyncObj × List Grant
  | [], x => ({ x with waiters := [] }, [])
  | w :: r, x =>
    if w.value ≤ x.count then
      let (y, g) := SyncObj.serveSem r { x with count := x.count - w.value }
      (y, { who := w, result := 0 } :: g)
    else ({ x with waiters := w :: r }, [])

/-- A lock passed to the first queued acquire, or freed (R223). -/
def SyncObj.pass (x : SyncObj) : SyncObj × List Grant :=
  match x.waiters with
  | [] => ({ x with holder := none }, [])
  | w :: r => ({ x with holder := some w.owner, waiters := r }, [{ who := w, result := x.state }])

/-- An arrival at a barrier in its open phase (R228). -/
def SyncObj.arrive (x : SyncObj) (o : Owner) (w : Option Waiter) : SyncObj × List Grant :=
  if x.arrivals.length + 1 < x.participants then
    ({ x with arrivals := x.arrivals ++ [o], waiters := x.waiters ++ w.toList }, [])
  else ({ x with arrivals := [], waiters := [] }, (x.waiters ++ w.toList).map fun v => { who := v, result := 0 })

/-- A SYNC_WAIT applied to an object (R183). -/
def SyncObj.wait (x : SyncObj) (w : Waiter) : SyncObj × List Grant :=
  match x.typ with
  | 3 => if w.value ≤ x.count then (x, [{ who := w, result := 0 }]) else ({ x with waiters := x.waiters ++ [w] }, [])
  | 1 => if x.waiters.isEmpty && w.value ≤ x.count then ({ x with count := x.count - w.value }, [{ who := w, result := 0 }])
    else ({ x with waiters := x.waiters ++ [w] }, [])
  | 0 =>
    match x.holder with
    | none => ({ x with holder := some w.owner }, [{ who := w, result := x.state }])
    | some o => if o = w.owner then (x, [{ who := w, result := x.state, kept := true }])
      else ({ x with waiters := x.waiters ++ [w] }, [])
  | _ => if x.state = 2 then (x, [{ who := w, result := 2 }]) else x.arrive w.owner (some w)

/-- A SYNC_SIGNAL applied to an object (R184): the object, the waits it satisfies, and the reason of an
EV_SYNC_MISUSE (R223, R227). -/
def SyncObj.signal (x : SyncObj) (o : Owner) (value : Nat) : SyncObj × List Grant × Option Nat :=
  match x.typ with
  | 3 =>
    let c := min (x.count + value) (2 ^ 64 - 1)
    ({ x with count := c, waiters := x.waiters.filter (fun w => c < w.value) },
      (x.waiters.filter (fun w => w.value ≤ c)).map (fun w => { who := w, result := 0 }), none)
  | 1 =>
    let big := 2 ^ 32 ≤ x.count + value
    let y := { x with count := min (x.count + value) (2 ^ 32 - 1) }
    let (z, g) := SyncObj.serveSem y.waiters y
    (z, g, if big then some 1 else none)
  | 0 =>
    if x.holder = some o then
      let (y, g) := x.pass
      (y, g, none)
    else (x, [], some 0)
  | _ =>
    if x.state = 2 then (x, [], none)
    else
      let (y, g) := x.arrive o none
      (y, g, none)

/-- What a satisfied leading wait of an unstarted job took given back (R186): the lock it acquired is released, and the units it
took are returned, with R227's misuse where they saturate. -/
def SyncObj.giveBack (x : SyncObj) (o : Owner) (value : Nat) : SyncObj × List Grant × Option Nat :=
  match x.typ with
  | 0 =>
    if x.holder = some o then
      let (y, g) := x.pass
      (y, g, none)
    else (x, [], none)
  | 1 => x.signal o value
  | _ => (x, [], none)

/-- The leading wait under way of an unstarted job withdrawn (R186): its place in the queue, and its arrival in the open
phase. -/
def SyncObj.withdraw (x : SyncObj) (o : Owner) : SyncObj × List Grant :=
  let x := { x with waiters := x.waiters.filter (·.owner != o) }
  match x.typ with
  | 1 => SyncObj.serveSem x.waiters x
  | 2 => ({ x with arrivals := x.arrivals.erase o }, [])
  | _ => (x, [])

/-! ### Grants -/

/-- Status that carries the result of a wait in a SYNC_RSP. -/
def grantStatus (result : Nat) : Nat :=
  if result = 1 then ST.okAbandoned else if result = 2 then ST.barrierBroken else ST.ok

/-- A satisfied wait may order this chip after writes elsewhere (R184): bytes of other chips read before it are not used after
it, and those of reads under way are not kept. A pool's pages, which only its streams write, stay. -/
def State.forgetViews (s : State) : State :=
  { s with valley := { s.valley with
      views := s.valley.views.filter fun e => s.pooled e.1.1 e.1.2,
      outstanding := s.valley.outstanding.map fun (o : Outstanding) =>
        (if o.msg.typ == mRdReq then { o with stale := true } else o) } }

/-- The head job of a stream has its present leading wait satisfied, or faults where the barrier is broken
(R187). What a later undo must give back is noted. -/
def State.satisfied (s : State) (i chip handle typ value result : Nat) (kept : Bool) : State :=
  match (s.stream? i).bind (·.head?) with
  | none => s
  | some j =>
    if j.started.isSome || j.leading ≤ j.waits then s
    else if result = 2 then s.faultJob i 0x47 j.waits
    else
      let took := match typ with
        | 0 => if kept then [] else [Took.lock chip handle]
        | 1 => [Took.sem chip handle value]
        | _ => []
      s.forgetViews.updStream i fun x =>
        { x.updHead (fun j => { j with
            waits := j.waits + 1, waitFrom := none, waitOn := none,
            abandoned := j.abandoned || result == 1,
            took := j.took ++ took,
            heard := if typ = 3 && chip = s.chip then handle :: j.heard else j.heard }) with
          held := if chip = s.chip then x.held
            else if typ = 0 && !x.held.contains (chip, handle) then x.held ++ [(chip, handle)]
            else if typ = 2 then x.held.erase (chip, handle) else x.held }

/-- A wait's answer delivered: to the local stream, or by SYNC_RSP to the waiting chip (R222), with the
status in bytes 0 and 1 and KEPT in byte 2 (log entry 22). -/
def State.deliver1 (s : State) (x : SyncObj) (g : Grant) : State :=
  if g.who.owner.chip = s.chip then
    match s.byHandle g.who.owner.stream with
    | some st => s.satisfied st.index s.chip x.handle x.typ g.who.value g.result g.kept
    | none => s
  else
    match s.valley.heldReqs.find? (fun h => h.1.src == g.who.owner.chip && h.1.tag == g.who.tag) with
    | some (q, _) =>
      let d := leBytes 2 (grantStatus g.result) ++ leBytes 1 (b2n g.kept) ++ leBytes 1 x.typ
      (s.dedup q mSyncRsp d).respond q mSyncRsp d
    | none => s

def State.deliver (s : State) (x : SyncObj) (l : List Grant) : State := l.foldl (fun s g => s.deliver1 x g) s

/-- An object replaced and the waits it satisfied answered. -/
def State.setObj (s : State) (x : SyncObj) (l : List Grant) : State :=
  (s.updObj x.index fun _ => x).deliver x l

/-- EV_SYNC_MISUSE (R223). -/
def State.misuse (s : State) (x : SyncObj) (o : Owner) (reason : Nat) : State :=
  s.emit [x.part + 1] EV.syncMisuse 2 x.handle (pay [(0, o.stream), (4, reason), (6, o.chip)]) false (some x.part)

/-- An object replaced, the waits it satisfied answered, and a misuse reported. -/
def State.setSignalled (s : State) (o : Owner) (r : SyncObj × List Grant × Option Nat) : State :=
  let s := s.setObj r.1 r.2.1
  match r.2.2 with
  | some m => s.misuse r.1 o m
  | none => s

/-- A signal applied. -/
def State.signalObj (s : State) (x : SyncObj) (o : Owner) (value : Nat) : State := s.setSignalled o (x.signal o value)

/-! ### Owners that are reset (R224, R228) -/

/-- A held lock whose owner is reset: ABANDONED, passed on, and its event (R224). -/
def State.abandon (s : State) (x : SyncObj) (o : Owner) (cause : Nat) : State :=
  let (y, g) := { x with state := 1 }.pass
  let s := s.emit [x.part + 1] EV.lockAbandoned 2 x.handle
    (pay [(0, o.chip), (2, o.part), (3, cause), (4, o.stream)]) false (some x.part)
  s.setObj y g

/-- A barrier whose participant is reset: BROKEN, its waiters released with ST_BARRIER_BROKEN (R228). -/
def State.breakBarrier (s : State) (x : SyncObj) (o : Owner) : State :=
  let s := s.emit [x.part + 1] EV.barrierBroken 2 x.handle
    (pay [(0, o.stream), (4, o.chip), (6, o.part)]) false (some x.part)
  s.setObj { x with state := 2, waiters := [] } (x.waiters.map fun w => { who := w, result := 2 })

/-- What the reset of owners does to one object: their waiters leave it, a lock they hold is abandoned, a
barrier they have arrived at in its open phase breaks. -/
def State.ownersReset1 (s : State) (i : Nat) (gone : Owner → Bool) (cause : Nat) : State :=
  match s.sobj? i with
  | none => s
  | some x =>
    let x := { x with waiters := x.waiters.filter fun w => !gone w.owner }
    match x.typ with
    | 0 => match x.holder with
      | some o => if gone o then s.abandon x o cause else s.setObj x []
      | none => s.setObj x []
    | 1 => let (y, g) := SyncObj.serveSem x.waiters x
      s.setObj y g
    | 2 => match x.arrivals.find? gone with
      | some o => if x.state = 2 then s.setObj x [] else s.breakBarrier x o
      | none => s.setObj x []
    | _ => s.setObj x []

/-- The reset of owners at every object of this chip. -/
def State.ownersReset (s : State) (gone : Owner → Bool) (cause : Nat) : State :=
  s.sync.objs.foldl (fun s x => s.ownersReset1 x.index gone cause) s

/-! ### Remote operations and undoing (R186, R222) -/

/-- The operand of a SYNC_OP: verb 0 wait, 1 signal, 2 withdrawal of a wait, 3 giving back in byte 0, the handle in bytes 4
to 7, the value in bytes 8 to 15, the stream handle in bytes 16 to 19, for a withdrawal the wait's TAG in bytes 20 and 21
(log entry 22). -/
def syncOperand (verb handle value stream tag : Nat) : List Byte :=
  leBytes 1 verb ++ leBytes 3 0 ++ leBytes 4 handle ++ leBytes 8 value ++ leBytes 4 stream ++ leBytes 2 tag ++ leBytes 10 0

/-- A sync operation sent to the chip that holds the object. -/
def State.syncRemote (s : State) (x : Stream) (chip verb handle value : Nat) (job : Option (Nat × Nat)) (tag : Nat := 0) : State :=
  s.request { typ := mSyncOp, src := s.chip, dst := chip, addr := bits handle 0 10, part := x.owner,
              data := syncOperand verb handle value x.handle tag } job

/-- The object of this chip that a handle names, where it has not been freed since. -/
def State.objOf (s : State) (handle : Nat) : Option SyncObj := (s.sobj? (bits handle 0 10)).filter fun y => y.handle == handle

/-- What one satisfied leading wait took given back where its object lies. -/
def State.giveBack (s : State) (x : Stream) (chip handle value : Nat) : State :=
  if chip = s.chip then
    match s.objOf handle with
    | some y => s.setSignalled ⟨s.chip, x.owner, x.handle⟩ (y.giveBack ⟨s.chip, x.owner, x.handle⟩ value)
    | none => s
  else s.syncRemote x chip 3 handle value none

/-- The wait under way withdrawn where its object lies. A request for it that has gone out is answered by the withdrawal's
effect at that chip and serves no job any longer; one that has not gone out never does. -/
def State.withdrawWait (s : State) (x : Stream) (j : Job) (chip handle : Nat) : State :=
  if chip = s.chip then
    match s.objOf handle with
    | some y => let (z, g) := y.withdraw ⟨s.chip, x.owner, x.handle⟩
      s.setObj z g
    | none => s
  else
    let mine : Nat × Nat := (x.index, j.waits)
    let sent := s.valley.outstanding.find? fun o => o.job == some mine && o.msg.typ == mSyncOp
    let s := s.giveUp (· == mine)
    match sent with
    | some o => s.syncRemote x chip 2 handle (leNat ((o.msg.data.drop 8).take 8)) none o.msg.tag
    | none => s

/-- Every leading wait of an unstarted job undone (R186): the one under way, then those satisfied. -/
def State.undoJob (s : State) (x : Stream) (j : Job) : State :=
  let s := match j.waitOn with
    | some (c, h) => s.withdrawWait x j c h
    | none => s
  let s := j.took.foldl (fun s t => match t with
    | .lock c h => s.giveBack x c h 0
    | .sem c h u => s.giveBack x c h u) s
  let mine (h : Nat × Nat) : Bool := j.took.any fun t => match t with
    | .lock c k => (c, k) == h
    | .sem _ _ _ => false
  s.updStream x.index fun y => { y with held := y.held.filter fun h => !mine h }

end Sys2Proof.Machine
end

