-- ==== Sys2Proof/Machine/Sched.lean ====
section
/-! DEFINITION. The stream scheduler: half-plains (R196), finish-time prediction (R197, R198), the lateness tests (R199, R200), job outcomes (R206, R207, R211), held counts and BUSY (R271), ranking, dispatch and pre-emption (R195, R196, R201, R204). -/
namespace Sys2Proof.Machine
open Sys2Proof

/-! ### Half-plains -/

/-- The quadrant of a Plain (Table 3-1). -/
def quadOf (p : Nat) : Nat := p / 8 * 2 + p % 4 / 2

/-- Whether a rail-fault throttle holds a Plain down (Table 3-9): its quadrant's core rail, VDD_SRAM or VDD_PLL. -/
def State.railThrottle (s : State) (p : Nat) : Bool :=
  (s.rail (3 + quadOf p)).throttle || (s.rail 1).throttle || (s.rail 2).throttle

/-- The duty applied to a Plain, in eighths (R66). -/
def State.dutyOf (s : State) (p : Nat) : Nat := min (s.plain p).duty (if s.railThrottle p then 4 else 8)

/-- The half-plains of a partition, ascending. -/
def State.hpsOf (s : State) (p : Nat) : List Nat := (List.range 32).filter (ownsHalf s p)

/-- Those of them that have not left HP_OK since the partition was made (Table 23-1). -/
def State.workHps (s : State) (p : Nat) : List Nat := (s.hpsOf p).filter fun h => bit s.boot.hpOk.toNat h

/-- Those that no descriptor holds, whose Plain has not tripped and whose generator has locked, so that the Plain's logic is out of
reset (R14). -/
def State.freeHps (s : State) (p : Nat) : List Nat :=
  (s.workHps p).filter fun h => !(s.plain (h / 2)).tripped && (s.plain (h / 2)).locked && s.sched.runs.all (fun r => !r.hps.contains h)

/-- n of R196. -/
def State.nOf (s : State) (p hpMax : Nat) : Nat :=
  let h := (s.workHps p).length
  if hpMax ≠ 0 && hpMax ≤ h then hpMax else h

/-! ### Prediction (R197) -/

/-- R and K0 of an (OP, format) pair; 1 and 0 before calibration. -/
def State.costOf (s : State) (op fmt : Nat) : Nat × Nat :=
  match s.sched.costs.find? (fun c => c.op == op && c.fmt == fmt) with
  | some c => (c.r, c.k0)
  | none => (1, 0)

/-- Cycles per nanosecond at the present setting: 0.80 GHz and 12.5 MHz for each code (R14). -/
def Plain.cyclesPerNs (x : Plain) : Rat := ((64 + x.current : Nat) : Rat) / 80

/-- Bytes per nanosecond of Basin bandwidth that a list of reservations brings, factors applied. -/
def bandwidth (l : List Resv) : Rat :=
  (l.map fun r => ((r.amount * r.factors.getD 0 0 : Nat) : Rat) / 32768).sum / 1000

/-- B of Table 10-3: the stream's Basin reservations, else its partition's, else 1/32 of the best-effort rate
for each half-plain used. -/
def State.basinRate (s : State) (x : Stream) (n : Nat) : Rat :=
  let rs := s.ledger.resvs.filter fun r => r.kind == 0 && r.inEffect && r.part == x.owner
  let own := rs.filter (·.stream == x.handle)
  let com := rs.filter (·.stream == 0)
  if !own.isEmpty then bandwidth own
  else if !com.isEmpty then bandwidth com
  else ((s.sched.beRate * n : Nat) : Rat) / 32 / 1000

/-- What stands for a quotient by zero: later than every deadline. -/
def never : Rat := 2 ^ 70

/-- The duration of a descriptor without α, on its first n half-plains (log entry 26); 0.5 µs for a SYNC operation. -/
def State.base (s : State) (x : Stream) (d : Desc) : Rat :=
  if d.op = oWait || d.op = oSignal then 500
  else
    let n := s.nOf x.owner d.hpMax
    let ps := ((s.workHps x.owner).take n).map (· / 2)
    let (r, k0) := s.costOf d.op d.fmt
    let speed := ps.foldl (fun (m : Option Rat) p =>
      let v := (s.plain p).cyclesPerNs * s.dutyOf p / 8
      match m with
      | none => some v
      | some w => some (if v < w then v else w)) none
    let b := s.basinRate x n
    let eng : Rat := match speed with
      | some v => if v * n * r = 0 then never else d.work / (n * r * v)
      | none => never
    let mem : Rat := if d.bytes = 0 then 0 else if b = 0 then never else d.bytes / b
    (k0 : Rat) + (if eng < mem then mem else eng)

/-- c of R197. -/
def State.predict (s : State) (x : Stream) (d : Desc) : Rat :=
  if d.op = oWait || d.op = oSignal then 500 else s.alphaOf x.owner d.op * s.base x d

/-- C of a job over the descriptors that have not ended. -/
def State.predictJob (s : State) (x : Stream) (j : Job) : Rat :=
  (j.descs.mapIdx fun i d => if j.ended.contains i || i < j.waits then 0 else s.predict x d).sum

/-- C of a job over all its descriptors, as R200 applies it to a job that has not started. -/
def State.predictFull (s : State) (x : Stream) (j : Job) : Rat := (j.descs.map (s.predict x)).sum

/-- The width n of a job: the most half-plains any of its descriptors uses (log entry 26). -/
def State.widthOf (s : State) (x : Stream) (j : Job) : Nat :=
  (j.descs.map fun d => s.nOf x.owner d.hpMax).foldl max 1

/-! ### The tests of R199 -/

/-- Jobs of a stream. -/
def Stream.jobs (x : Stream) : List Job :=
  x.items.filterMap fun i => match i with
    | .job j => some j
    | .gate _ => none

/-- Admitted, unended jobs of a partition with their streams. -/
def State.partJobs (s : State) (p : Nat) : List (Stream × Job) :=
  (s.streams.filter (·.owner == p)).flatMap fun x => x.jobs.map fun j => (x, j)

/-- Whether a job counts at deadline `dk` in the test for class `cls` (0 LC, 1 ST). -/
def counted (cls dk : Nat) (x : Stream) (j : Job) : Bool :=
  (x.cls == 0 && (cls == 1 || j.deadline ≤ dk)) || (cls == 1 && x.cls == 1 && j.deadline ≤ dk)

/-- Demand(Dk). -/
def State.demand (s : State) (p cls dk : Nat) : Rat :=
  ((s.partJobs p).filter fun a => counted cls dk a.1 a.2).map (fun a => s.predictJob a.1 a.2 * s.widthOf a.1 a.2) |>.sum

/-- The lateness test of a new job: chain and demand (R199). F_LAST and durations are exact rationals here, and a finish with a
fraction of a nanosecond is compared with the integer deadline as it stands: DESIGN CHOICE, the spec names no rounding (log
entry 143). -/
def State.passes (s : State) (x : Stream) (c : Rat) (n deadline : Nat) : Bool :=
  let t : Rat := s.now
  let start := if x.fLast < t then t else x.fLast
  let h := (s.workHps x.owner).length
  let dks := deadline :: ((s.partJobs x.owner).filter fun a =>
    (a.1.cls == 0 || (x.cls == 1 && a.1.cls == 1)) && deadline ≤ a.2.deadline).map (·.2.deadline)
  decide (start + c ≤ deadline) &&
  dks.all fun dk => decide (s.demand x.owner x.cls dk + c * n ≤ (h : Rat) * ((dk : Rat) - t - 40000))

/-! ### Held jobs and BUSY (R269, R271) -/

/-- A job held. -/
def State.hold1 (s : State) (p : Nat) : State :=
  let s := s.updPart p fun x => { x with held := x.held + 1 }
  if Config.busySet ≤ (s.part p).held && !(s.part p).busy then
    (s.updPart p fun x => { x with busy := true }).emit [p + 1] EV.partBusy 2 (hPart p) (part := some p)
  else s

/-- A job held no longer. -/
def State.unhold (s : State) (p : Nat) : State :=
  let s := s.updPart p fun x => { x with held := x.held - 1 }
  if (s.part p).held ≤ Config.busyClear && (s.part p).busy then
    (s.updPart p fun x => { x with busy := false }).emit [p + 1] EV.partBusyClear 2 (hPart p) (part := some p)
  else s

/-! ### Outcomes -/

/-- Whether a job that ends now ends after its deadline (R33). -/
def State.isLate (s : State) (x : Stream) (j : Job) : Bool := x.cls != 2 && decide (j.deadline < s.now)

/-- A job leaves its stream with an outcome (Table 10-4): its counters (R207, R211), and the completion of a
WAIT_END submission or the event of another. A job that has acquired an ABANDONED lock and ends late keeps that outcome, counts
as late, and raises EV_JOB_LATE whatever its WAIT_END (Hard corners of chapter 23). -/
def State.outcome (s : State) (i : Nat) (j : Job) (status : Nat) : State :=
  match s.stream? i with
  | none => s
  | some x =>
    let s := s.updStream i fun y => { y with items := y.items.filter fun it => match it with
      | .job k => k.number != j.number
      | .gate _ => true }
    let s := if status < 0x100 || status == ST.jobFault || status == ST.collectiveAborted then s.count i 0 1 else s
    let both := status == ST.okAbandoned && s.isLate x j
    let s := if both || status == ST.okLate || status == ST.lateThrottled || status == ST.lateDropped then s.count i 1 1 else s
    let s := s.unhold x.owner
    let ring := [x.owner + 1]
    let late (s : State) : State :=
      s.emit ring EV.jobLate 2 x.handle (pay [(0, j.number % 2 ^ 32), (8, s.now)]) false (some x.owner)
    let s := if both then late s else s
    if j.waitEnd then s.complete j.req status (if status < 0x100 then s.now else 0)
    else
      if status == ST.okLate || status == ST.lateThrottled then late s
      else if status == ST.lateDropped then
        s.emit ring EV.jobDropped 2 x.handle (pay [(0, j.number % 2 ^ 32), (4, j.req.id.toNat), (8, s.now)]) false (some x.owner)
      else s

/-- The outcome of a job whose last write has ended (Table 10-4, R225). -/
def State.endStatus (s : State) (x : Stream) (j : Job) : Nat :=
  match j.aborted with
  | some _ => ST.collectiveAborted
  | none =>
    if j.abandoned then ST.okAbandoned
    else if !s.isLate x j then ST.ok
    else if x.cls = 0 && j.throttled then ST.lateThrottled else ST.okLate

/-- An LC job that has not started and could no longer end by its deadline if it started now (R11, R200). -/
def State.missed (s : State) (x : Stream) (j : Job) : Bool :=
  x.cls == 0 && j.started.isNone && !decide ((s.now : Rat) + s.predictFull x j ≤ j.deadline)

/-- A queued job dropped or cancelled: its leading waits are undone, then it leaves (R186). -/
def State.removeJob (s : State) (i : Nat) (j : Job) (status : Nat) : State :=
  match s.stream? i with
  | none => s
  | some x => (s.undoJob x j).outcome i j status

/-- Queued LC jobs of a partition that can no longer meet their deadlines, dropped (R11, R200); those of a stream that is torn
down leave it by its teardown (R208). -/
def State.dropLate (s : State) (p : Nat) : State :=
  (s.partJobs p).foldl (fun s a =>
    match (s.stream? a.1.index).bind fun x => (x.jobs.find? (·.number == a.2.number)).map (x, ·) with
    | some (x, j) => if x.state != .teardown && s.missed x j then s.removeJob x.index j ST.lateDropped else s
    | none => s) s

/-- The head job ends when every descriptor has ended, or its COLL was aborted and nothing of it runs, or it
consists of satisfied waits only (R182). -/
def State.endHead (s : State) (i : Nat) : State :=
  match s.stream? i with
  | none => s
  | some x =>
    match x.head? with
    | none => s
    | some j =>
      let running := s.sched.runs.any (·.s == i)
      let all := j.waits == j.leading &&
        (List.range j.count).all (fun k => k < j.leading || j.ended.contains k)
      if x.state != .teardown && !running && (all || j.aborted.isSome) then s.outcome i j (s.endStatus x j) else s

/-! ### Ranking (R195) -/

/-- The rank of a stream's head job: class, deadline or stamp, stamp, index; smaller ranks higher. -/
def rankOf (x : Stream) (j : Job) : List Nat :=
  [x.cls, if x.cls = 2 then j.stamp else j.deadline, j.stamp, x.index]

/-- Lexicographic order. -/
def before : List Nat → List Nat → Bool
  | [], _ => false
  | _, [] => false
  | a :: r, b :: t => a < b || (a == b && before r t)

/-- A descriptor that could run now: its rank, stream, index, n, and whether it resumes. -/
structure Cand where
  rank : List Nat
  s : Nat
  d : Nat
  n : Nat
  resume : Bool
deriving DecidableEq, Repr

/-- What a stream's head job could run now: its pre-empted descriptors, and its next one under R181. -/
def State.cands (s : State) (x : Stream) : List Cand :=
  match x.head? with
  | none => []
  | some j =>
    if x.state == .teardown || j.waits < j.leading || j.aborted.isSome then [] else
    let back := (s.sched.runs.filter fun r => r.s == x.index && r.hps.isEmpty).map fun r =>
      ({ rank := rankOf x j, s := x.index, d := r.d, resume := true,
         n := s.nOf x.owner ((j.descs[r.d]?).elim 0 (·.hpMax)) } : Cand)
    let new := match j.descs[j.next]? with
      | none => []
      | some e =>
        let free := (List.range j.next).all fun k => k < j.leading || j.ended.contains k
        if e.op != oSignal && e.op != oWait && (e.overlap || free) then
          [({ rank := rankOf x j, s := x.index, d := j.next, resume := false, n := s.nOf x.owner e.hpMax } : Cand)]
        else []
    back ++ new

/-- Candidates of a partition, highest rank first. -/
def insertCand (c : Cand) : List Cand → List Cand
  | [] => [c]
  | e :: r => if before c.rank e.rank then c :: e :: r else e :: insertCand c r

def State.allCands (s : State) (p : Nat) : List Cand :=
  ((s.streams.filter (·.owner == p)).flatMap s.cands).foldl (fun l c => insertCand c l) []

/-! ### Pre-emption (R201, R204) -/

/-- Save slots in use at a half-plain. -/
def State.slotsUsed (s : State) (h : Nat) : Nat := (s.sched.runs.filter fun r => r.saved.any (·.1 == h)).length

/-- Running descriptors that a candidate outranks and whose half-plains have a free save slot, lowest rank
first. BG never pre-empts BG; what a torn-down stream still runs goes to its end (R208). -/
def State.victims (s : State) (c : Cand) : List (List Nat × Run) :=
  (s.sched.runs.filterMap fun r =>
    match s.stream? r.s with
    | none => none
    | some x => match x.head? with
      | none => none
      | some j =>
        if x.state != .teardown && !r.hps.isEmpty && !r.marked && !r.done && before c.rank (rankOf x j) &&
            !(c.rank.headD 0 == 2 && x.cls == 2) && r.hps.all (fun h => s.slotsUsed h < 8)
        then some (rankOf x j, r) else none).foldl (fun l v =>
      let rec ins : List (List Nat × Run) → List (List Nat × Run)
        | [] => [v]
        | e :: t => if before e.1 v.1 then v :: e :: t else e :: ins t
      ins l) []

/-- Descriptors marked for pre-emption until a candidate's n half-plains come free; none where they cannot. -/
def State.markFor (s : State) (p : Nat) (c : Cand) : State :=
  let have' := (s.freeHps p).length +
    ((s.sched.runs.filter fun r => r.part == p && r.marked).map (·.hps.length)).sum
  let vs := (s.victims c).filter (·.2.part == p)
  if c.n ≤ have' || have' + (vs.map (·.2.hps.length)).sum < c.n then s
  else
    let (marks, _) := vs.foldl (fun (a : List (Nat × Nat) × Nat) v =>
      if c.n ≤ a.2 then a else ((v.2.s, v.2.d) :: a.1, a.2 + v.2.hps.length)) ([], have')
    { s with sched := { s.sched with runs := s.sched.runs.map fun r =>
        (if marks.contains (r.s, r.d) then { r with marked := true } else r) } }

/-! ### Dispatch -/

/-- A tensor that a field of a dispatched descriptor names, as the reread at dispatch found it (R190); offset 8 is DST. -/
def Run.tensor (r : Run) (off : Nat) : Tensor := tensorOf (((r.tens.find? (·.1 == dField r.desc off)).map (·.2)).getD 0)

/-- The local address of a job's descriptor. -/
def Job.at (j : Job) (d : Nat) : Nat := vLocal j.addr + 64 * d

/-- The reread of R190: `some cause` where the descriptor or a tensor descriptor it names cannot be read or differs. Poison in
either comes before a change of either. -/
def State.descCheck (s : State) (x : Stream) (j : Job) (d : Nat) : Option Nat :=
  let a := j.at d
  let crcs := j.crcs.getD d []
  let refs := (tensorRefs (s.block a)).map (fun r => vLocal r.2)
  if !rangeOk s x.owner a 64 then some 0x41
  else if s.anyPoison a 64 then some 0x44
  else
    let readable := refs.filter fun t => rangeOk s x.owner t 64
    if readable.any (fun t => s.anyPoison t 64) then some 0x44
    else if crc32c (s.rd a 64) != crcs.headD 0 then some 0x45
    else if readable.length != refs.length then some 0x41
    else if refs.map (fun t => crc32c (s.rd t 64)) != crcs.tail then some 0x45
    else none

/-- The Plain in RET whose store a 64-byte read by a partition meets, if it may read there (R61). -/
def State.retAt (s : State) (p a : Nat) : Option Nat :=
  match access s p a with
  | .ok k => if k < affineBase && (s.plain (keyHalf k / 2)).state == .ret then some (keyHalf k / 2) else none
  | _ => none

/-- Plains in RET that the read of a descriptor and its tensor descriptors meets: those of the descriptor first, since what it
names is known only once it is read. -/
def State.retOf (s : State) (p a : Nat) : List Nat :=
  match s.retAt p a with
  | some q => [q]
  | none => (tensorRefs (s.block a)).filterMap fun r => s.retAt p (vLocal r.2)

/-- A Plain woken by a dispatch (R60): from IDLE at once, from RET by the exit of R61. -/
def State.wakePlain (s : State) (p : Nat) : State :=
  s.updPlain p fun x => match x.state with
    | .idle => { x with state := .run, since := s.now }
    | .ret => { x with exiting := true }
    | _ => x

/-- The stream RNG's next state (R282). -/
def nextSeed (r : BitVec 16) : BitVec 16 := r * 0x6255 + 0x3619

/-- A dispatch in the dispatch trace: stamp, stream handle, descriptor, OP, first half-plain; zeros for a confidential
partition (R458, Table 21-8). -/
def State.traced (s : State) (p handle d op : Nat) (hps : List Nat) : State :=
  let e := if (s.part p).cfg.confidential then (0, 0, 0, 0, 0) else (s.now, handle, d, op, hps.headD 0)
  { s with dbg := { s.dbg with trace := (s.dbg.trace ++ [e]).drop (s.dbg.trace.length + 1 - 4096) } }

/-- Whether a throttle holds a Plain: its duty, or a thermal limit below its target (R66, R67). -/
def State.isThrottled (s : State) (p : Nat) : Bool := s.dutyOf p < 8 || (s.plain p).limit < (s.plain p).target

/-- A started LC job that now takes half-plains of a Plain on which a throttle began after the job's start is marked (R69). -/
def State.markLate (s : State) (x : Stream) (j : Job) (hps : List Nat) : State :=
  if x.cls == 0 && hps.any (fun h => s.isThrottled (h / 2) &&
      (s.plain (h / 2)).throttleFrom.any fun t => j.started.any (· < t)) then
    s.updStream x.index fun x => x.updHead fun j => { j with throttled := true }
  else s

/-- A candidate dispatched on the first n free half-plains (R196), each of which chooses its stripe plan (R350). A first descriptor of an LC job is
dispatched only if the job can still meet its deadline (R200). -/
def State.start (s : State) (p : Nat) (c : Cand) : State :=
  match s.stream? c.s with
  | none => s
  | some x => match x.head? with
    | none => s
    | some j =>
      let hps := (s.freeHps p).take c.n
      if c.resume then
        let s := { s with sched := { s.sched with runs := s.sched.runs.map fun (r : Run) =>
            (if r.s == c.s && r.d == c.d then { r with hps := hps, since := s.now, saved := [], marked := false } else r) } }
        let s := (s.traced p x.handle c.d ((j.descs[c.d]?).elim 0 (·.op)) hps).markLate x j hps
        hps.foldl (fun s h => s.wakePlain (h / 2)) s
      else if s.missed x j then
        s.removeJob x.index j ST.lateDropped
      else match s.descCheck x j c.d with
        | some cause => s.faultJob x.index cause c.d
        | none =>
          let e := (j.descs[c.d]?).getD { op := 0 }
          let b := s.block (j.at c.d)
          let own := dRound b == 1 && dSeed b == 0
          let r : Run := { s := c.s, d := c.d, part := p, op := e.op, hps := hps, since := s.now, base := s.base x e,
                           seed := if own then x.rng.toNat else dSeed b, desc := b,
                           tens := (tensorRefs b).map fun r => (r.2, s.block (vLocal r.2)),
                           plan := plansOf b (s.tensor (dField b 16)) (s.tensor (dDst b)) hps.length }
          let s := { s with sched := { s.sched with runs := s.sched.runs ++ [r] } }
          let s := s.traced p x.handle c.d e.op hps
          let s := s.updStream c.s fun x => { x.updHead (fun j =>
            { j with next := c.d + 1, started := some (j.started.getD s.now) }) with
              rng := if own then nextSeed x.rng else x.rng }
          let s := s.markLate x j hps
          hps.foldl (fun s h => s.wakePlain (h / 2)) s

/-- Plains in RET that the reread of a candidate's descriptor meets. -/
def State.candRet (s : State) (p : Nat) (c : Cand) : List Nat :=
  match (s.stream? c.s).bind (·.head?) with
  | some j => if c.resume then [] else s.retOf p (j.at c.d)
  | none => []

/-- The highest-ranked candidate that fits is dispatched; those above it that do not fit mark what they may
pre-empt, and one whose descriptor lies in the store of a Plain in RET wakes that Plain (R61). `none` when nothing fits. -/
def State.pick (s : State) (p : Nat) : List Cand → State × Bool
  | [] => (s, false)
  | c :: r =>
    if 0 < c.n && c.n ≤ (s.freeHps p).length then
      if (s.candRet p c).isEmpty then (s.start p c, true)
      else State.pick ((s.candRet p c).foldl State.wakePlain s) p r
    else State.pick (s.markFor p c) p r

/-- Heads of a partition whose waits were all there was, ended. -/
def State.endHeads (s : State) (p : Nat) : State :=
  (s.streams.filter (·.owner == p)).foldl (fun s x => s.endHead x.index) s

def State.dispatchN (p : Nat) : Nat → State → State
  | 0, s => s
  | n + 1, s =>
    let s := s.endHeads p
    match s.pick p (s.allCands p) with
    | (s, true) => State.dispatchN p n s
    | (s, false) => s

/-- A dispatch decision of a partition: late LC jobs are dropped (R200), then descriptors start while any
fits (R195, R196). None while a reset has closed admission (Table 11-1), or after a trip of the chip. -/
def State.dispatch (s : State) (p : Nat) : State :=
  if !(s.part p).exist || (s.part p).step != 0 then s
  else State.dispatchN p (64 + (s.partJobs p).length) (s.dropLate p)

/-- Dispatch in every partition. -/
def State.dispatchAll (s : State) : State := (List.range 32).foldl State.dispatch s

end Sys2Proof.Machine
end

