-- ==== Sys2Proof/Machine/Remote.lean ====
section
/-! DEFINITION. Memory by Valley address (R243): this chip's own bytes, and the bytes of other chips that it has read or written; the remote reads and writes that a descriptor or a KV pool needs (R340, R361). -/
namespace Sys2Proof.Machine
open Sys2Proof

/-- Bytes of a remote chip noted. -/
def State.noteView (s : State) (chip a : Nat) (l : List Byte) : State :=
  let other (e : (Nat × Nat) × Byte) : Bool := !(e.1.1 == chip && a ≤ e.1.2 && e.1.2 < a + l.length)
  let new := l.mapIdx fun i b => ((chip, a + i), b)
  { s with valley := { s.valley with views := new ++ s.valley.views.filter other } }

/-- What a read brought, where this chip does not know the bytes already. -/
def State.fillView (s : State) (chip a : Nat) (l : List Byte) : State :=
  let new := (l.mapIdx fun i b => ((chip, a + i), b)).filter fun e => !s.valley.views.any (·.1 == e.1)
  { s with valley := { s.valley with views := new ++ s.valley.views } }

/-- Bytes of remote ranges that are not kept past the descriptor that read them. -/
def State.dropViews (s : State) (l : List (Nat × Nat)) : State :=
  let hit (e : (Nat × Nat) × Byte) : Bool :=
    l.any fun r => vChip r.1 == e.1.1 && vLocal r.1 / 64 * 64 ≤ e.1.2 && e.1.2 < vLocal r.1 + r.2 + 63
  { s with valley := { s.valley with views := s.valley.views.filter fun e => !hit e } }

/-- The extension of an LC job's accesses (R356). -/
def State.extOf (s : State) (job : Option (Nat × Nat)) : Option (Nat × Nat) :=
  match job with
  | none => none
  | some (i, _) => match s.stream? i with
    | none => none
    | some x => if x.cls = 0 then (x.head?).map fun j => (j.deadline, x.handle) else none

/-- Reads sent for what is missing of a remote range, one for each 4 KiB piece, unless one is under way. -/
def State.fetch (s : State) (p v n : Nat) (job : Option (Nat × Nat)) : State :=
  let miss := s.vMissing v n
  let ps := (miss.map (· / 4096)).dedup
  ps.foldl (fun s k =>
    let l := miss.filter (· / 4096 == k)
    let a := l.foldl min (l.headD 0)
    let e := l.foldl max 0
    if s.valley.outstanding.any (fun o => o.msg.typ == mRdReq && o.msg.dst == vChip a && o.msg.addr == vLocal a && o.job == job && !o.stale)
        || s.valley.queued.any (fun q => q.1.typ == mRdReq && q.1.dst == vChip a && q.1.addr == vLocal a && q.2 == job) then s
    else s.request { typ := mRdReq, lc := (s.extOf job).isSome, ext := s.extOf job, src := s.chip, dst := vChip a,
                     addr := vLocal a, len := (e - a) / 64 + 1, part := p } job) s

/-- Reads sent for ranges of another chip, one for each 4 KiB piece, whether or not their bytes are known here (R340). -/
def State.readThere (s : State) (p : Nat) (l : List (Nat × Nat)) (job : Option (Nat × Nat)) : State :=
  let gs := ((l.filter fun r => !s.isLocal r.1).flatMap fun r => granules r.1 r.2).dedup
  ((gs.map (· / 4096)).dedup).foldl (fun s k =>
    let m := gs.filter (· / 4096 == k)
    let a := m.foldl min (m.headD 0)
    s.request { typ := mRdReq, lc := (s.extOf job).isSome, ext := s.extOf job, src := s.chip, dst := vChip a,
                addr := vLocal a, len := (m.foldl max 0 - a) / 64 + 1, part := p } job) s

/-- A store at a Valley address. On another chip it is a WR_REQ for each 4 KiB piece, of whole granules (log
entry 27). -/
def State.vWr (s : State) (p v : Nat) (l : List Byte) (job : Option (Nat × Nat)) : State :=
  if s.isLocal v then s.store (vLocal v) l
  else
    let s := s.noteView (vChip v) (vLocal v) l
    let gs := granules v l.length
    ((gs.map (· / 4096)).dedup).foldl (fun s k =>
      let m := gs.filter (· / 4096 == k)
      let a := m.headD 0
      s.request { typ := mWrReq, lc := (s.extOf job).isSome, ext := s.extOf job, src := s.chip, dst := vChip a,
                  addr := vLocal a, len := m.length, part := p, data := s.vRd a (m.length * 64) } job) s

/-- Whether anything of a job is still to be answered by another chip. -/
def State.waitsRemote (s : State) (i d : Nat) : Bool :=
  s.valley.outstanding.any (·.job == some (i, d)) || s.valley.queued.any (·.2 == some (i, d))

/-- Poison of a granule carried with a copy (R480), on this chip. -/
def State.movePoison (s : State) (src dst n : Nat) : State :=
  if s.isLocal src && s.isLocal dst && s.anyPoison (vLocal src) n then
    (granules dst n).foldl (fun s g => match localKey s (vLocal g) with
      | some k => { s with mem := s.mem.mark k (s.mem.poisoned k ||
          ((granules src n).any fun h => decide (h + 64 > src + (g - dst)) && decide (h < src + (g + 64 - dst)) &&
            ((localKey s (vLocal h)).map s.mem.poisoned).getD false)) }
      | none => s) s
  else s

/-- Bytes copied with their poison. -/
def State.vCopy (s : State) (p src dst n : Nat) : State :=
  (((s.readThere p [(src, n)] none).vWr p dst (s.vRd src n) none)).movePoison src dst n

end Sys2Proof.Machine
end

