-- ==== Sys2Proof/Machine/KvPages.lean ====
section
/-! DEFINITION. KV pools and page tables: geometry and layout (R322), metadata words, free list and references (R323, R324), map pages and tails (R325), adoption and copy-on-write (R328, R329), and what a fork, a truncation and a release do (R330, R331, R333). -/
namespace Sys2Proof.Machine
open Sys2Proof

/-! ### Geometry (R322) -/

/-- E: entries a map page holds (R325). -/
def KvPool.entries (k : KvPool) : Nat := k.pageSize / 4 - 4
/-- M: pages of metadata (R323). -/
def KvPool.metaPages (k : KvPool) : Nat := (k.pages * 8 + k.pageSize - 1) / k.pageSize
/-- Valley address of a page. -/
def KvPool.pageAddr (k : KvPool) (n : Nat) : Nat := k.backing + n * k.pageSize

/-- Offsets of Table 17-1: key and value rows, and their scales. -/
def KvPool.kOff (k : KvPool) (h j : Nat) : Nat := (h * k.perPage + j) * k.row
def KvPool.vOff (k : KvPool) (h j : Nat) : Nat := k.heads * k.perPage * k.row + (h * k.perPage + j) * k.row
def KvPool.ksOff (k : KvPool) (h j : Nat) : Nat := 2 * k.heads * k.perPage * k.row + (h * k.perPage + j) * k.scales
def KvPool.vsOff (k : KvPool) (h j : Nat) : Nat :=
  2 * k.heads * k.perPage * (k.row + k.scales) - k.heads * k.perPage * k.scales + (h * k.perPage + j) * k.scales

/-! ### Metadata words (R323) -/

/-- A metadata word from its fields. -/
def kvWordOf (refs : Nat) (tail map perm free : Bool) (next : Nat) : Nat :=
  refs + b2n tail * 2 ^ 16 + b2n map * 2 ^ 17 + b2n perm * 2 ^ 18 + b2n free * 2 ^ 19 + next * 2 ^ 24

def State.kvWord (s : State) (k n : Nat) : Nat := s.vNat ((s.pool k).backing + 8 * n) 8
def State.setKvWord (s : State) (k n w : Nat) : State :=
  s.vWr (s.pool k).part ((s.pool k).backing + 8 * n) (leBytes 8 w) none

/-- The read of a metadata word that a pool on another chip needs (R340). -/
def State.seeWord (s : State) (k n : Nat) : State :=
  s.readThere (s.pool k).part [((s.pool k).backing + 8 * n, 8)] none

def wRefs (w : Nat) : Nat := bits w 0 16
def wPerm (w : Nat) : Bool := bit w 18
def wNext (w : Nat) : Nat := bits w 24 24

/-- The page at the head of the free list taken, with REFS 1. -/
def State.kvTake (s : State) (k : Nat) (tail map : Bool) : Nat × State :=
  let n := (s.pool k).freeHead
  let next := wNext (s.kvWord k n)
  let s := (s.seeWord k n).setKvWord k n (kvWordOf 1 tail map false false 0)
  (n, s.updPool k fun p => { p with freeHead := next, freeCount := p.freeCount - 1 })

/-- A page pushed onto the head of the free list. -/
def State.kvFree (s : State) (k n : Nat) : State :=
  let s := s.setKvWord k n (kvWordOf 0 false false false true (s.pool k).freeHead)
  s.updPool k fun p => { p with freeHead := n, freeCount := p.freeCount + 1 }

/-- A map entry more that names a page (R324). -/
def State.kvInc (s : State) (k n : Nat) : State :=
  let w := s.kvWord k n
  let s := s.seeWord k n
  if wPerm w then s
  else if wRefs w = 65535 then
    let p := s.pool k
    (s.setKvWord k n (kvWordOf 65535 false false true false 0)).emit [p.part + 1] EV.kvRefcountSaturated 2
      (hPool k p.gen) (pay [(0, n)]) false (some p.part)
  else s.setKvWord k n (kvWordOf (wRefs w + 1) false false false false 0)

/-- A map entry less: at 0 the page is free at once; a PERMANENT page stays (R324). -/
def State.kvDec (s : State) (k n : Nat) : State :=
  let w := s.kvWord k n
  let s := s.seeWord k n
  if wPerm w then s
  else if wRefs w ≤ 1 then s.kvFree k n
  else s.setKvWord k n (kvWordOf (wRefs w - 1) false false false false 0)

/-! ### Map pages (R325) -/

/-- Valley address of the map page of layer `l`. -/
def State.mapAddr (s : State) (m : KvMap) (l : Nat) : Nat := (s.pool m.pool).pageAddr (m.maps.getD l 0)
def State.kvLen (s : State) (m : KvMap) (l : Nat) : Nat := s.vNat (s.mapAddr m l) 4
def State.kvTail (s : State) (m : KvMap) (l : Nat) : Nat := s.vNat (s.mapAddr m l + 4) 3
def State.kvEntry (s : State) (m : KvMap) (l i : Nat) : Nat := s.vNat (s.mapAddr m l + 16 + 4 * i) 3

def State.setLen (s : State) (m : KvMap) (l v : Nat) : State :=
  s.vWr (s.pool m.pool).part (s.mapAddr m l) (leBytes 4 v) none
def State.setTail (s : State) (m : KvMap) (l v : Nat) : State :=
  s.vWr (s.pool m.pool).part (s.mapAddr m l + 4) (leBytes 3 v) none
def State.setEntry (s : State) (m : KvMap) (l i v : Nat) : State :=
  s.vWr (s.pool m.pool).part (s.mapAddr m l + 16 + 4 * i) (leBytes 4 v) none

/-- The KV map of a stream. -/
def State.kvOf (s : State) (i : Nat) : Option KvMap := (s.stream? i).bind (·.kv)

/-- The number of entries of a layer changed. -/
def State.setCount (s : State) (i l n : Nat) : State :=
  s.updStream i fun x => { x with kv := x.kv.map fun m => { m with counts := updAt m.counts l (fun _ => n) } }
def State.kvCount (s : State) (i l : Nat) : Nat := ((s.kvOf i).map (·.counts.getD l 0)).getD 0

/-- The smallest LENGTH over a stream's layers (R326); 0 without a map. -/
def State.kvLength (s : State) (x : Stream) : Nat :=
  match x.kv with
  | none => 0
  | some m =>
    match (List.range m.maps.length).map (s.kvLen m) with
    | [] => 0
    | a :: r => r.foldl min a

/-- The bytes of a layer's map page that are in use. -/
def State.mapArea (s : State) (m : KvMap) (i l : Nat) : Nat × Nat := (s.mapAddr m l, 16 + 4 * s.kvCount i l)
/-- The read of a map page that a pool on another chip needs (R340). -/
def State.seeMap (s : State) (m : KvMap) (i l : Nat) : State :=
  s.readThere (s.pool m.pool).part [s.mapArea m i l] none

/-- The page that holds page index `i` of a layer: an entry, or the tail. -/
def State.kvPage (s : State) (m : KvMap) (i l pg : Nat) : Nat :=
  if pg < s.kvCount i l then s.kvEntry m l pg else s.kvTail m l

/-! ### Rows -/

/-- Rows `[a, b)` of slots copied from one page to another of a pool, with their scales and poison (R480). -/
def State.kvCopyRows (s : State) (k src dst a n b : Nat) : State :=
  let p := s.pool k
  let move (s : State) (off len : Nat → Nat → Nat) : State :=
    (List.range p.heads).foldl (fun s h => (List.range n).foldl (fun s j =>
      s.vCopy p.part (p.pageAddr src + off h (a + j)) (p.pageAddr dst + off h (b + j)) (len h j)) s) s
  let s := move s p.kOff (fun _ _ => p.row)
  let s := move s p.vOff (fun _ _ => p.row)
  if p.scales = 0 then s
  else move (move s p.ksOff (fun _ _ => p.scales)) p.vsOff (fun _ _ => p.scales)

/-! ### A map drawn and released -/

/-- Map page and tail of each of `n` layers drawn (R325): the stream's KV map. -/
def State.kvDraw (s : State) (k : Nat) : Nat → KvMap → KvMap × State
  | 0, m => (m, s)
  | n + 1, m =>
    let (a, s) := s.kvTake k false true
    let (t, s) := s.kvTake k true false
    let p := s.pool k
    let s := s.vWr p.part (p.pageAddr a) (leBytes 4 0 ++ leBytes 3 t) none
    State.kvDraw s k n { m with maps := m.maps ++ [a], counts := m.counts ++ [0] }

/-- Every reference, tail and map page of a stream given back (R333); nothing of a pool that is gone. -/
def State.kvRelease (s : State) (i : Nat) : State :=
  match s.kvOf i with
  | none => s
  | some m =>
    if !(s.pool m.pool).exist || (s.pool m.pool).lost then s
    else
      (List.range m.maps.length).foldl (fun s l =>
        let s := s.seeMap m i l
        let s := (List.range (m.counts.getD l 0)).foldl (fun s e => s.kvDec m.pool (s.kvEntry m l e)) s
        (s.kvFree m.pool (s.kvTail m l)).kvFree m.pool (m.maps.getD l 0)) s

/-! ### Adoption and copy-on-write (R328, R329) -/

/-- The tail adopted as the next entry, and a fresh tail taken. -/
def State.adopt (s : State) (i l : Nat) : State :=
  match s.kvOf i with
  | none => s
  | some m =>
    let t := s.kvTail m l
    let e := s.kvCount i l
    let s := (s.setEntry m l e t).setKvWord m.pool t (kvWordOf 1 false false false false 0)
    let (f, s) := s.kvTake m.pool true false
    (s.setTail m l f).setCount i l (e + 1)

/-- Whether an entry page may be written in place. -/
def State.kvOwn (s : State) (k n : Nat) : Bool := wRefs (s.kvWord k n) == 1 && !wPerm (s.kvWord k n)

/-- Entry pages below LENGTH that a write of positions `[a, b)` must copy first. -/
def State.cowPages (s : State) (m : KvMap) (i l a b : Nat) : List Nat :=
  let P := (s.pool m.pool).perPage
  (List.range (s.kvCount i l)).filter fun g =>
    a < (g + 1) * P && g * P < b && a < b && !s.kvOwn m.pool (s.kvEntry m l g)

/-- Pages that a write of positions `[a, b)` draws: fresh tails and copies (R328). -/
def State.kvNeed (s : State) (m : KvMap) (i l a b : Nat) : Nat :=
  let P := (s.pool m.pool).perPage
  (if b = 0 then 0 else (b - 1) / P - s.kvCount i l) + (s.cowPages m i l a b).length

/-- An entry page replaced by a fresh copy (R329). -/
def State.cow (s : State) (i l g : Nat) : State :=
  match s.kvOf i with
  | none => s
  | some m =>
    let p := s.pool m.pool
    let old := s.kvEntry m l g
    let (f, s) := s.kvTake m.pool false false
    let s := s.vCopy p.part (p.pageAddr old) (p.pageAddr f) p.pageSize
    (s.setEntry m l g f).kvDec m.pool old

/-- Why a write of `n` positions from `a` cannot be made: beyond LENGTH or the map (ADDR_UNMAPPED), or for want
of pages (KV_NO_PAGES). -/
def State.kvBlocked (s : State) (m : KvMap) (i l a n : Nat) : Option Nat :=
  let p := s.pool m.pool
  if s.kvLen m l < a || (p.entries + 1) * p.perPage < a + n then some 0x41
  else if p.freeCount < s.kvNeed m i l a (a + n) then some 0x49
  else none

/-- The pages a write of `n` positions from `a` needs, made ready, and LENGTH raised. -/
def State.kvReady (s : State) (i l a n : Nat) : State :=
  match s.kvOf i with
  | none => s
  | some m =>
    let P := (s.pool m.pool).perPage
    let s := s.seeMap m i l
    let s := (s.cowPages m i l a (a + n)).foldl (fun s g => s.cow i l g) s
    let s := (List.range (if n = 0 then 0 else (a + n - 1) / P - s.kvCount i l)).foldl (fun s _ => s.adopt i l) s
    if s.kvLen m l < a + n then s.setLen m l (a + n) else s

/-- Bytes that making pages ready moves at the pool (R328, R329, Table 10-6): the map page read; for each copy the page read and
written with its entry, its own metadata word taken and the old one lowered; for each adoption its entry, the tail's field and two
metadata words, one of them read first; LENGTH where it rises (DEDUCED, log entry 147). -/
def State.readyBytes (s : State) (i l a n : Nat) : Nat :=
  match s.kvOf i with
  | none => 0
  | some m =>
    let P := (s.pool m.pool).perPage
    (s.mapArea m i l).2 + (s.cowPages m i l a (a + n)).length * (2 * (s.pool m.pool).pageSize + 4 + 16 + 16) +
      (if n = 0 then 0 else (a + n - 1) / P - s.kvCount i l) * (4 + 3 + 8 + 16) + (if s.kvLen m l < a + n then 4 else 0)

/-! ### Fork and truncation -/

/-- Whether step 1 of R330 needs a page in a layer: a full tail that `p` covers wholly, not at the map's end. -/
def State.forkAdopts (s : State) (m : KvMap) (i l p : Nat) : Bool :=
  let P := (s.pool m.pool).perPage
  let e := s.kvCount i l
  s.kvLen m l == (e + 1) * P && (e + 1) * P ≤ p && e < (s.pool m.pool).entries

/-- One layer of a fork from stream `i` into the empty stream `d` at `p` (R330), and the entries shared. -/
def State.forkLayer (s : State) (i d p l : Nat) : Nat × State :=
  match s.kvOf i, s.kvOf d with
  | some m, some md =>
    let P := (s.pool m.pool).perPage
    let s := s.seeMap m i l
    let s := if s.forkAdopts m i l p then s.adopt i l else s
    let n := min (s.kvCount i l) (p / P)
    let s := (List.range n).foldl (fun s g =>
      let pg := s.kvEntry m l g
      (s.setEntry md l g pg).kvInc m.pool pg) s
    let s := s.setCount d l n
    let src := s.kvPage m i l n
    let s := if n * P < p then s.kvCopyRows m.pool src (s.kvTail md l) 0 (p - n * P) 0 else s
    (n, s.setLen md l p)
  | _, _ => (0, s)

/-- A fork over every layer: pages shared. -/
def State.fork (s : State) (i d p : Nat) : Nat × State :=
  match s.kvOf i with
  | none => (0, s)
  | some m => (List.range m.maps.length).foldl (fun a l =>
      let (n, s) := a.2.forkLayer i d p l
      (a.1 + n, s)) (0, s)

/-- One layer of a truncation to `p` (R331). -/
def State.cutLayer (s : State) (i p l : Nat) : State :=
  match s.kvOf i with
  | none => s
  | some m =>
    let P := (s.pool m.pool).perPage
    let k := p / P
    let e := s.kvCount i l
    let s := s.seeMap m i l
    if e ≤ k then s.setLen m l p
    else
      let low := if p = k * P then k else k + 1
      let s := (List.range (e - low)).foldl (fun s g => s.kvDec m.pool (s.kvEntry m l (low + g))) s
      let s :=
        if p = k * P then s
        else
          let pg := s.kvEntry m l k
          let old := s.kvTail m l
          if s.kvOwn m.pool pg then
            ((s.setTail m l pg).setKvWord m.pool pg (kvWordOf 1 true false false false 0)).kvFree m.pool old
          else (s.kvCopyRows m.pool pg old 0 (p - k * P) 0).kvDec m.pool pg
      (s.setCount i l k).setLen m l p

/-- A truncation over every layer. -/
def State.cut (s : State) (i p : Nat) : State :=
  match s.kvOf i with
  | none => s
  | some m => (List.range m.maps.length).foldl (fun s l => s.cutLayer i p l) s

end Sys2Proof.Machine
end

