-- ==== Sys2Proof/Machine/Kv.lean ====
section
/-! DEFINITION. The KV commands (R171, R476, R330 to R332) and the order in which KV commands and jobs of one stream take effect (R169). -/
namespace Sys2Proof.Machine
open Sys2Proof

/-! ### Stream contexts opened (R192) -/

/-- A stream context taken: the one free longest, OPEN with its first values (Table 10-1). -/
def State.openStream (s : State) (x : Stream) : Nat × Nat × State :=
  let (i, g, f) := s.streamFree.take Config.streamContexts
  let y := { x with index := i, gen := g, rng := 1 }
  (i, y.handle, { s with streams := s.streams ++ [y], streamFree := f })

/-! ### Pools -/

/-- The lowest pool number that no pool holds (R476). -/
def State.freePool (s : State) : Option Nat := (List.range 8).find? fun n => !(s.pool n).exist

def chkKvPoolCreate (m : Nat) (s : State) (e : Block) (_ : Taken) : Option (Nat × Nat) :=
  let k := poolOfEntry m e
  if s.freePool.isNone then some (ST.busy, 0)
  else if s.isLocal k.backing && !rangeOwned s k.part (vLocal k.backing) (k.pages * k.pageSize) then
    some (ST.addrUnmapped, 0)
  else none

/-- The metadata of a new pool: metadata pages are never handed out, the others stand on the free list in
ascending order (R323; the order is the model's, log entry 28). -/
def State.kvFormatPool (s : State) (n : Nat) : State :=
  let k := s.pool n
  let M := k.metaPages
  (List.range k.pages).foldl (fun s i =>
    s.setKvWord n i (if i < M then kvWordOf 0 false false false false 0
      else kvWordOf 0 false false false true (if i + 1 < k.pages then i + 1 else 0))) s

def effKvPoolCreate (s : State) (r : Req) (t : Taken) : State :=
  match s.freePool with
  | none => s.complete r ST.busy
  | some n =>
    let k := poolOfEntry r.m t.entry
    let M := k.metaPages
    let s := s.updPool n fun o => { k with gen := o.gen, freeHead := M, freeCount := k.pages - M }
    let s := s.kvFormatPool n
    s.complete r ST.ok (hPool n (s.pool n).gen + k.perPage * 2 ^ 32)

/-- KV_POOL_CREATE. -/
def execKvPoolCreate (m : Nat) (c : Cmd) (s : State) : Host.Outcome State Fault Refusal :=
  run State.core s fun s => lolin 0x0601 m c s (chkKvPoolCreate m) effKvPoolCreate

/-- Whether a stream holds a page of a pool (R171). -/
def State.poolHeld (s : State) (n : Nat) : Bool := s.streams.any fun x => x.kv.any (·.pool == n)

def chkKvPoolDestroy (m : Nat) (s : State) (e : Block) (_ : Taken) : Option (Nat × Nat) :=
  match s.poolOf (mbPart m) (eTarget e) with
  | some n => if s.poolHeld n && !(s.pool n).lost then some (ST.kvPoolInUse, 0) else none
  | none => none

/-- A pool gone, its number free under the next generation (R476). -/
def State.dropPool (s : State) (n : Nat) : State :=
  s.updPool n fun k => { gen := (k.gen + 1) % 256 }

def effKvPoolDestroy (s : State) (r : Req) (t : Taken) : State :=
  match s.poolOf (mbPart r.m) (eTarget t.entry) with
  | some n => (s.dropPool n).complete r ST.ok
  | none => s

/-- KV_POOL_DESTROY. -/
def execKvPoolDestroy (m : Nat) (c : Cmd) (s : State) : Host.Outcome State Fault Refusal :=
  run State.core s fun s => lolin 0x0602 m c s (chkKvPoolDestroy m) effKvPoolDestroy

/-! ### The order of R169 -/

/-- A KV command placed behind the jobs of a stream. -/
def State.gate (s : State) (i : Nat) (r : Req) : State :=
  s.updStream i fun x => { x with items := x.items ++ [.gate r] }

/-- A KV command taken out of every stream. -/
def State.ungate (s : State) (r : Req) : State :=
  { s with streams := s.streams.map fun x => { x with items := x.items.filter (· != .gate r) } }

/-- Whether a KV command stands first in every stream that it names. -/
def State.gateOpen (s : State) (r : Req) : Bool :=
  s.streams.all fun x => !x.items.contains (.gate r) || x.items.head? == some (.gate r)

/-! ### Fork, truncation, prefix holders -/

/-- The destination of a KV_FORK. -/
def State.forkDest (s : State) (m : Nat) (e : Block) : Option Stream := s.streamOf (mbPart m) (eParam e 0 0 32)

/-- The checks of R171 in order; the pool of a lost chip has no pages to give (R341). -/
def State.kvCheck (s : State) (op : Nat) (x : Stream) (d : Option Stream) (p : Nat) : Option Nat :=
  let need (m : KvMap) : Nat := ((List.range m.maps.length).filter fun l => s.forkAdopts m x.index l p).length
  match op with
  | 0x0603 =>
    match x.kv, d.bind (·.kv) with
    | some m, some md =>
      if m.pool != md.pool || m.maps.length != md.maps.length then some ST.kvPoolMismatch
      else if s.kvLength x < p then some ST.kvRange
      else if (List.range md.maps.length).any (fun l => s.kvLen md l != 0) then some ST.kvNotEmpty
      else if (s.pool m.pool).lost || (s.pool m.pool).freeCount < need m then some ST.kvNoPages
      else none
    | _, _ => some ST.kvPoolMismatch
  | 0x0604 => if s.kvLength x < p then some ST.kvRange else none
  | _ =>
    match x.kv with
    | none => some ST.kvPoolMismatch
    | some m =>
      if s.kvLength x < p then some ST.kvRange
      else if (s.pool m.pool).lost || (s.pool m.pool).freeCount < 2 * m.maps.length + need m then some ST.kvNoPages
      else if !s.streamFree.any Config.streamContexts then some ST.busy
      else none

/-- A KV command whose turn has come: its checks, its effect, its completion. -/
def State.kvRun (s : State) (r : Req) (t : Taken) : State :=
  let e := t.entry
  let op := eOpcode e
  let s := s.ungate r
  match s.streamOf (mbPart r.m) (eTarget e) with
  | none => s.complete r ST.badHandle
  | some x =>
    let d := s.forkDest r.m e
    let p := if op = 0x0603 then eParam e 4 0 32 else eParam e 0 0 32
    match s.kvCheck op x d p with
    | some st => s.complete r st
    | none =>
      match op, x.kv with
      | 0x0603, _ =>
        match d with
        | some y =>
          let (n, s) := s.fork x.index y.index p
          s.complete r ST.ok n
        | none => s.complete r ST.badHandle
      | 0x0604, _ => (s.cut x.index p).complete r ST.ok p
      | _, some m =>
        let (i, h, s) := s.openStream { index := 0, gen := 0, owner := x.owner, holder := true }
        let (md, s) := s.kvDraw m.pool m.maps.length { pool := m.pool }
        let s := s.updStream i fun y => { y with kv := some md }
        let (_, s) := s.fork x.index i p
        s.complete r ST.ok h
      | _, none => s.complete r ST.kvPoolMismatch

/-- Every KV command whose turn has come carried out; while the CP is down none is (R9, R158). -/
def State.gatesN : Nat → State → State
  | 0, s => s
  | n + 1, s =>
    if !s.cpUp then s
    else match (s.streams.filterMap fun x => match x.items with
        | .gate r :: _ => if s.gateOpen r then some r else none
        | _ => none).head? with
    | none => s
    | some r => match s.taken r with
      | some t => State.gatesN n (s.kvRun r t)
      | none => State.gatesN n (s.ungate r)

/-- KV commands in turn, then a dispatch decision of each partition, and KV commands again that the jobs it
ended let through. -/
def State.advance (s : State) : State :=
  let n (s : State) := (s.streams.map (·.items.length)).sum
  let s := s.gatesN (n s)
  let s := s.dispatchAll
  let s := s.gatesN (n s)
  s.dispatchAll

/-- The stream statuses of a KV command. -/
def chkKv (m : Nat) (s : State) (e : Block) (_ : Taken) : Option (Nat × Nat) :=
  let fork := eOpcode e == 0x0603
  if fork && (s.forkDest m e).isNone then some (ST.badHandle, 0)
  else match closingCheck s m e with
    | some st => some st
    | none => if fork && (s.forkDest m e).any (·.state != .opened) then some (ST.streamClosing, 0) else none

/-- A KV command committed: it waits its turn in the streams it names (R169). -/
def effKv (s : State) (r : Req) (t : Taken) : State :=
  match s.streamOf (mbPart r.m) (eTarget t.entry) with
  | none => s
  | some x =>
    let s := (s.wait r).gate x.index r
    let s := match s.forkDest r.m t.entry with
      | some y => if eOpcode t.entry = 0x0603 && y.index != x.index then s.gate y.index r else s
      | none => s
    s.advance

/-- KV_FORK. -/
def execKvFork (m : Nat) (c : Cmd) (s : State) : Host.Outcome State Fault Refusal :=
  run State.core s fun s => lolin 0x0603 m c s (chkKv m) effKv
/-- KV_TRUNCATE. -/
def execKvTruncate (m : Nat) (c : Cmd) (s : State) : Host.Outcome State Fault Refusal :=
  run State.core s fun s => lolin 0x0604 m c s (chkKv m) effKv
/-- KV_PIN_PREFIX. -/
def execKvPinPrefix (m : Nat) (c : Cmd) (s : State) : Host.Outcome State Fault Refusal :=
  run State.core s fun s => lolin 0x0605 m c s (chkKv m) effKv

end Sys2Proof.Machine
end

