-- ==== Sys2Proof/Machine/Teardown.lean ====
section
/-! DEFINITION. The STREAM reset (R208, R209, Table 10-5): what a stream leaves behind, its accounting and its events. -/
namespace Sys2Proof.Machine
open Sys2Proof

/-- Counters kept in a partition's mode, other than counter 0 (Table 8-13). -/
def State.keptCounters (s : State) (p : Nat) : List Nat :=
  if s.full p then [1, 2, 3, 4, 5, 6, 7, 8] else [1, 2, 8]

/-- Class of EV_STREAM_TEARDOWN by its cause (Table 23-3): lasting for PEER_LOST, DATA_UNCORRECTABLE and
ENGINE_LASTING, else policy (log entry 29). -/
def teardownClass (cause : Nat) : Nat := if cause == 0x43 || cause == 0x44 || cause == 0x48 then 1 else 2

/-- Slots that a stream's job had written into, POISONED with cause PRODUCER_FAULT (R137). -/
def State.poisonWritten (s : State) (i job : Nat) : State :=
  (List.range 33).foldl (fun s f => (List.range 64).foldl (fun s w =>
    let x := s.window f w
    if x.mapped then (List.range x.count).foldl (fun s k =>
      if (x.slot k).owner == 2 && (x.slot k).wrote.contains (i, job) then s.poisonSlot f w k 1 else s) s
    else s) s) s

/-- Slots of EVENT windows that a torn-down stream had taken through its waits, POISONED with cause CONSUMER_RESET (R137; log
entry 154). -/
def State.poisonHeard (s : State) (f : Nat) (events : List Nat) : State :=
  (List.range 64).foldl (fun s w =>
    let x := s.window f w
    if x.mapped && x.bind = 0 && events.contains x.target then
      (x.deviceSlots.filter fun k => (x.slot k).taken).foldl (fun s k => s.poisonSlot f w k 2) s
    else s) s

/-- Layers that a stream produced for have no producer any longer (Table 10-5). -/
def detach (h : Nat) (x : Enc) : Enc :=
  let off (l : Layer) : Layer := if l.source == 0 && l.producer == h then { l with producer := 0, published := [] } else l
  { x with layers := x.layers.map off, nextLayers := x.nextLayers.map fun n => (n.1, n.2.1, off n.2.2) }

/-- Reservations of a holder released (R262): they leave at the first window start after this stamp. -/
def State.releaseResvs (s : State) (f : Resv → Bool) : State :=
  { s with ledger := { s.ledger with resvs := s.ledger.resvs.map fun r =>
      (if f r && r.released.isNone then { r with released := some s.now } else r) } }

/-- Ownership notices to every chip that holds a lock, or an open arrival, of a stream (R226): stream handle
in bytes 0 to 3, partition in byte 4, cause in byte 5 (log entry 22). -/
def State.ownerNotices (s : State) (x : Stream) (cause : Nat) : State :=
  ((x.held.map (·.1)).dedup).foldl (fun s c =>
    s.send { typ := mOwnerNotice, src := s.chip, dst := c, len := 1, part := x.owner,
             data := padTo 64 (leBytes 4 x.handle ++ leBytes 1 x.owner ++ leBytes 1 cause) }) s

/-- EV_STREAM_ACCT for each counter kept, then EV_STREAM_TEARDOWN (R209). -/
def State.teardownEvents (s : State) (x : Stream) (cause d job : Nat) : State :=
  let ring := [x.owner + 1]
  let s := (s.keptCounters x.owner).foldl (fun s k =>
    s.emit ring EV.streamAcct 2 x.handle (pay [(0, k), (8, x.counters.getD k 0)]) true (some x.owner)) s
  s.emit ring EV.streamTeardown (teardownClass cause) x.handle
    (pay [(0, cause), (2, d % 65536), (4, job % 2 ^ 32), (8, x.counters.getD 0 0)]) true (some x.owner)

/-- Jobs of a torn-down stream leave it: the job that ran or faulted with ST_JOB_FAULT, the others with
ST_CANCELLED, all with ST_ABORTED_BY_RESET at a PART reset (R217; log entry 30). The completion of the job that ran or
faulted is the last step of Table 10-5: it is handed back here. -/
def State.tearJobs (s : State) (i cause job : Nat) : State × List (Req × Nat) :=
  match s.stream? i with
  | none => (s, [])
  | some x => x.jobs.foldl (fun (a : State × List (Req × Nat)) j =>
      let s := a.1
      if j.started.isSome || (cause != 0 && j.number == job) then
        let st := if cause = 1 then ST.abortedByReset else ST.jobFault
        let k : Job := { j with waitEnd := false }
        (if j.started.isSome then s.outcome i k st else s.removeJob i k st, a.2 ++ if j.waitEnd then [(j.req, st)] else [])
      else (s.removeJob i j (if cause = 1 then ST.abortedByReset else ST.cancelled), a.2)) (s, [])

/-- KV commands that wait in a torn-down stream end (R208; log entry 30). -/
def State.tearGates (s : State) (i cause : Nat) : State :=
  match s.stream? i with
  | none => s
  | some x => x.items.foldl (fun s it => match it with
      | .gate r => (s.ungate r).complete r (if cause = 1 then ST.abortedByReset else ST.streamClosing)
      | .job _ => s) s

/-- The whole sequence of Table 10-5 for a stream in TEARDOWN none of whose descriptors runs any longer. -/
def State.tearDown (s : State) (i : Nat) : State :=
  match s.stream? i with
  | none => s
  | some x0 =>
    let (cause, d, job) := x0.endCause.getD (0, 0xFFFF, 0)
    let s := { s with sched := { s.sched with runs := s.sched.runs.filter (·.s != i) } }
    let (s, late) := s.tearJobs i cause job
    let s := s.giveUp (·.1 == i)
    let s := s.tearGates i cause
    let s := if cause = 0 then s else s.poisonWritten i job
    let s := s.poisonHeard (x0.owner + 1) (x0.jobs.flatMap (·.heard))
    match s.stream? i with
    | none => s
    | some x =>
      let o : Owner := ⟨s.chip, x.owner, x.handle⟩
      let why := if cause = 1 then 1 else 0
      let s := (s.ownersReset (· == o) why).ownerNotices x why
      let s := s.releaseResvs fun r => r.stream == x.handle
      let s := { s with coll := { s.coll with groups := s.coll.groups.map fun (g : Group) =>
        ({ g with colls := g.colls.filter fun (c : Collective) => c.s != i }) } }
      let s := s.kvRelease i
      let s := { s with media := { s.media with encs := s.media.encs.map (detach x.handle) } }
      let s := s.updPart x.owner fun p => { p with
        totals := p.totals.mapIdx fun k t => (t + x.counters.getD k 0) % 2 ^ 64 }
      let s := s.teardownEvents x cause d job
      let s := { s with
        streams := s.streams.filter (·.index != i),
        streamFree := s.streamFree.give i x.gen }
      let s := late.foldl (fun s r => s.complete r.1 r.2) s
      match x.close with
      | some r => s.complete r (if cause = 1 then ST.abortedByReset else ST.ok)
      | none => s

/-- Whether a stream's teardown can run: it is in TEARDOWN and nothing it dispatched runs. -/
def State.canTear (s : State) (i : Nat) : Bool :=
  (s.stream? i).any (·.state == .teardown) && s.sched.runs.all fun r => r.s != i || r.hps.isEmpty

/-- A partition's total of a counter: its streams torn down and those it has (R211). -/
def State.partTotal (s : State) (p k : Nat) : Nat :=
  ((s.part p).totals.getD k 0 + ((s.streams.filter (·.owner == p)).map (·.counters.getD k 0)).sum) % 2 ^ 64

end Sys2Proof.Machine
end

