-- ==== Sys2Proof/Machine/CollGroup.lean ====
section
/-! DEFINITION. Collective groups (R375): creation and destruction, control messages, aborts (R383), WITHDRAWN (R382) and SLOW (R381). -/
namespace Sys2Proof.Machine
open Sys2Proof

/-! ### Messages (log entry 31) -/

/-- COLL_CTRL: kind 0 READY, 1 SLOW, 2 WITHDRAWN, 3 ABORT in byte 0, GROUP_ID in bytes 4 to 7, the sequence in
8 to 11, the named chip in 12 and 13, the reason in 14, Δ in ms in 16 to 19 (log entry 31). -/
def ctrlData (kind id seq chip reason ms : Nat) : List Byte :=
  padTo 64 (leBytes 1 kind ++ leBytes 3 0 ++ leBytes 4 id ++ leBytes 4 seq ++ leBytes 2 chip ++ leBytes 1 reason ++
    leBytes 1 0 ++ leBytes 4 ms)

/-- A little-endian field of a message's data. -/
def msgNat (g : Msg) (o n : Nat) : Nat := leNat ((g.data.drop o).take n)

/-- A COLL_CTRL to every other member of a group. -/
def State.ctrl (s : State) (x : Group) (kind seq chip reason ms : Nat) : State :=
  (x.members.filter (· != s.chip)).foldl (fun s c =>
    s.send { typ := mCollCtrl, src := s.chip, dst := c, len := 1, part := x.part,
             data := ctrlData kind x.id seq chip reason ms }) s

/-! ### Groups -/

def State.group? (s : State) (i : Nat) : Option Group := s.coll.groups.find? (·.index == i)
def State.updGroup (s : State) (i : Nat) (f : Group → Group) : State :=
  { s with coll := { s.coll with groups := s.coll.groups.map fun x => if x.index == i then f x else x } }
/-- The group of a GROUP_ID and partition, by which messages name it. -/
def State.groupBy (s : State) (p id : Nat) : Option Group := s.coll.groups.find? fun x => x.part == p && x.id == id

/-- READY has arrived from every member (R375). -/
def Group.ready (x : Group) : Bool := x.members.all x.readyFrom.contains

/-- A group whose destruction waits goes once nothing of it is left in progress (R383). -/
def State.reapGroup (s : State) (i : Nat) : State :=
  match s.group? i with
  | some x =>
    if !x.destroy.isEmpty && x.colls.isEmpty then
      ({ s with coll := { s.coll with groups := s.coll.groups.filter (·.index != i) } }).completeAll x.destroy ST.ok
    else s
  | none => s

/-! ### Aborts (R383) -/

/-- What an aborted collective leaves in its destination: each granule its old value or a written one (log
entry 3). -/
def State.scramble (s : State) (p v n : Nat) : State :=
  (granules v n).foldl (fun s g =>
    let (k, s) := s.free
    if Config.cutChoice k g then
      let a := max g v
      let e := min (g + 64) (v + n)
      s.vWr p a ((List.range (e - a)).map fun i => Config.cutByte k (a + i)) none
    else s) s

/-- A tensor that a field of a dispatched descriptor names, as the reread at dispatch found it (R190). -/
def State.runTensor (s : State) (i d off : Nat) : Tensor :=
  match s.runAt i d with
  | some r => r.tensor off
  | none => tensorOf 0

/-- What an aborted collective had read of its source, when it had started, is charged (Table 10-6). -/
def State.collRead (s : State) (p : Nat) (c : Collective) : State :=
  let src := s.runTensor c.s c.d 16
  if c.started.isSome && s.isLocal src.base && (localKey s (vLocal src.base)).any (affineBase ≤ ·) && p < 32 then
    s.count c.s 4 src.span
  else s

/-- One collective of a group ends aborted: its descriptor ends, its job starts nothing more, the event. -/
def State.abortOne (s : State) (x : Group) (c : Collective) (chip reason : Nat) : State :=
  match s.stream? c.s with
  | none => s
  | some st =>
    let dst := s.runTensor c.s c.d 8
    let s := if c.started.isSome && s.isLocal dst.base then s.scramble x.part dst.base dst.span else s
    let s := (((s.tombstone (· == (c.s, c.d))).collRead x.part c).endDesc c.s c.d).updStream c.s fun y => y.updHead fun j => { j with aborted := some chip }
    s.emit [x.part + 1] EV.collectiveAborted 2 st.handle
      (pay [(0, x.id), (4, c.seq), (8, chip), (10, reason)]) false (some x.part)

/-- A group ABORTED: every collective on it aborts, naming the chip of the first abort applied. -/
def State.abortGroup (s : State) (i chip reason : Nat) : State :=
  match s.group? i with
  | none => s
  | some x =>
    let (chip, reason) := x.aborted.getD (chip, reason)
    let s := x.colls.foldl (fun s c => s.abortOne x c chip reason) s
    let s := s.updGroup i fun y => { y with aborted := some (chip, reason), colls := [], staged := [] }
    (x.colls.foldl (fun s c => s.endHead c.s) s).reapGroup i

/-- Every group of this chip aborts with reason WITHDRAWN, and its members are told (R382). -/
def State.withdraw (s : State) : State :=
  s.coll.groups.foldl (fun s x => (s.ctrl x 2 0 s.chip 1 0).abortGroup x.index s.chip 1) s

/-- Every group with a lost chip among its members aborts (R374). -/
def State.collLost (s : State) (chip : Nat) : State :=
  s.coll.groups.foldl (fun s x => if x.members.contains chip then s.abortGroup x.index chip 2 else s) s

/-! ### SLOW (R381) -/

/-- Δ of R381 in ms for a collective: what remains of its predicted time, at full Basin rate (log entry 26). -/
def State.slowMs (s : State) (c : Collective) (duty : Nat) : Nat :=
  match (s.stream? c.s).bind fun x => (x.head?).bind fun j => (j.descs[c.d]?).map fun d => s.predict x d with
  | none => 1
  | some t =>
    let left : Rat := t - ((s.now - c.started.getD s.now : Nat) : Rat)
    max 1 (Int.toNat (left * ((8 : Rat) / duty - 1) / 1000000).ceil)

/-- Throttle duty of the hottest throttled Basin, if any is throttled (R256). -/
def State.slowDuty (s : State) : Option Nat :=
  ((List.range 8).filterMap fun b =>
    if (s.basin b).throttled then some (s.prof.throttleDuty.getD b 4) else none).min?

/-- SLOW sent for one collective; this chip's own limit is not extended. -/
def State.sendSlow (s : State) (x : Group) (c : Collective) (duty : Nat) : State :=
  s.ctrl x 1 c.seq s.chip 0 (s.slowMs c duty)

/-- SLOW for every collective in progress, as a Basin becomes throttled. -/
def State.slowAll (s : State) (duty : Nat) : State :=
  s.coll.groups.foldl (fun s x => x.colls.foldl (fun s c => if c.started.isSome then s.sendSlow x c duty else s) s) s

/-! ### Commands -/

def chkCollGroupCreate (m : Nat) (s : State) (e : Block) (_ : Taken) : Option (Nat × Nat) :=
  let v := eParam e 16 0 64
  let n := 2 * eParam e 4 0 13
  if !(s.vMissing v n).isEmpty then none
  else if (s.groupBy (mbPart m) (eParam e 0 0 32)).isSome then some (ST.collGroupExists, 0)
  else if 256 ≤ s.coll.groups.length then some (ST.busy, 0)
  else none

/-- A group number not in use (log entry 76). -/
def State.freeGroup (s : State) : Nat := pickFree s.now ((List.range 256).filter fun i => (s.group? i).isNone)

def effCollGroupCreate (s : State) (r : Req) (t : Taken) : State :=
  let e := t.entry
  let v := eParam e 16 0 64
  let n := 2 * eParam e 4 0 13
  let p := mbPart r.m
  if !(s.vMissing v n).isEmpty then s.fetch p v n none
  else
    let l := s.memberList e
    let i := s.freeGroup
    let id := eParam e 0 0 32
    let came := (s.coll.early.filter fun y => y.1 == p && y.2.1 == id).map (·.2.2)
    let x : Group := { index := i, part := p, id := id, members := l, rank := eParam e 6 0 13,
                       timeout := if eParam e 8 0 16 = 0 then 50 else eParam e 8 0 16, readyFrom := s.chip :: came }
    let s := { s with coll := { s.coll with
      groups := s.coll.groups ++ [x], early := s.coll.early.filter fun y => !(y.1 == p && y.2.1 == id) } }
    (s.ctrl x 0 0 s.chip 0 0).complete r ST.ok (hGroup i)

/-- COLL_GROUP_CREATE. A LIST on another chip is read before the command commits. -/
def execCollGroupCreate (m : Nat) (c : Cmd) (s : State) : Host.Outcome State Fault Refusal :=
  run State.core s fun s => lolin 0x0A20 m c s (chkCollGroupCreate m) effCollGroupCreate

def effCollGroupDestroy (s : State) (r : Req) (t : Taken) : State :=
  match s.groupOf (mbPart r.m) (eTarget t.entry) with
  | some x => ((s.wait r).updGroup x.index fun y => { y with destroy := y.destroy ++ [r] }).reapGroup x.index
  | none => s

/-- COLL_GROUP_DESTROY. -/
def execCollGroupDestroy (m : Nat) (c : Cmd) (s : State) : Host.Outcome State Fault Refusal :=
  run State.core s fun s => lolin 0x0A21 m c s noCheck effCollGroupDestroy

end Sys2Proof.Machine
end

