-- ==== Sys2Proof/Machine/RailLadder.lean ====
section
/-! DEFINITION. The rail supervisor: sequences (R46, R48, R50), the fault ladder (R56, R57) with its throttle, and the rail-fault record (R49). -/
namespace Sys2Proof.Machine
open Sys2Proof

/-! ### Sequences -/

/-- A rail's enable raised. -/
def State.railOn (s : State) (ch : Nat) : State :=
  s.updRail ch fun r => { r with enabled := true, state := .ramping, enabledAt := s.now }
/-- Plains whose generators a rail's fall unlocks: all without VDD_PLL, a quadrant's without its core rail (R14, Table 3-5). -/
def unlocks (ch p : Nat) : Bool := ch == 1 || (3 ≤ ch && ch ≤ 6 && quadOf p == ch - 3)
/-- A rail's enable lowered; the stamp is that of the fall. -/
def State.railOff (s : State) (ch : Nat) : State :=
  { s.updRail ch fun r => { r with enabled := false, state := .off, enabledAt := s.now, moving := none, throttle := false } with
    plains := s.plains.mapIdx fun p (x : Plain) => (if unlocks ch p then { x with locked := false } else x) }

/-- Channels in the order in which their enables fall: reverse order of position, spares first (R38, R48). -/
def State.enabledDown (s : State) : List Nat := ((List.range 16).filter fun c => (s.rail c).enabled).reverse

/-- The lowering sequence started: its first enable falls. -/
def State.seqDown (s : State) (l : List Nat) (goal : Chip) : State :=
  let s := { s with sup := { s.sup with seq := .down l goal } }
  match l with
  | [] => s
  | c :: _ => s.railOff c

/-- The chip state at the end of a lowering sequence: POR_N is low in OFF and FAULT_OFF (Table 3-5). -/
def State.seqEnd (s : State) (goal : Chip) : State :=
  let s := { s with sup := { s.sup with seq := .steady, powerGood := s.sup.powerGood && goal == Chip.stby } }
  let s := { s with power := { s.power with chip := goal, entry := none } }
  if goal == .stby || goal == .off then s.emit [0] EV.powerState 2 0 (pay [(0, if goal == .stby then 2 else 3)]) else s

/-- The head of a lowering sequence has fallen: the next enable falls, RAIL_EN[0] not before the record of
R49 is written. FAULT_OFF is reached with the last one; STBY and OFF are reported by CHIP_STATE_REACHED. -/
def State.seqNext (s : State) : State :=
  match s.sup.seq with
  | .down (_ :: r) goal =>
    let s := { s with sup := { s.sup with seq := .down r goal } }
    match r with
    | [] => if goal == .faultOff then s.seqEnd goal else s
    | c :: _ => if c = 0 && s.sup.recordDue then s else s.railOff c
  | _ => s

/-- The PCIe link is lost with its rail (Table 3-5). -/
def State.linkLost (s : State) : State := { s with hif := { s.hif with up := false, training := false } }

/-! ### The rail-fault record (R49, Table 23-4) -/

/-- The record as a log record. -/
def RailFault.record (r : RailFault) : LogRec :=
  { code := EV.logRailFault, cls := 1, count := r.count, stamp := r.stamp,
    payload := pay [(0, r.channel), (1, r.cause), (2, r.level), (3, r.plain), (4, r.reading)] }

/-- The record written, to the AON log and, where flash can be reached, to the crash log. -/
def State.writeRecord (s : State) : State :=
  match s.sup.record with
  | none => { s with sup := { s.sup with recordDue := false } }
  | some r => ({ s with sup := { s.sup with recordDue := false, last := some { r.record with boot := s.logs.boot } } }).log r.record

/-- Flash can be reached: VDD_IO18 is on and was judged good (R47). -/
def State.flashUp (s : State) : Bool := (s.rail 0).enabled && ((s.rail 0).state == .good || (s.rail 0).state == .fault)

/-- The rail-fault record of a power-down that a fault causes is due (R49). Where flash cannot be reached it goes to the AON log
alone (R47). -/
def State.recordFault (s : State) (r : RailFault) : State :=
  let reach := s.flashUp
  let s := { s with sup := { s.sup with record := some r, recordDue := reach },
                    power := { s.power with entry := none, waking := false, rising := false } }
  if reach then s else s.writeRecord

/-- Level 3: the fault power-down of R48 and R49, ending in FAULT_OFF. A fault power-down under way goes on; a
commanded one becomes a fault power-down, which lowers every rail that is still enabled once the one under way has fallen
(Hard corners of chapter 03, Table 3-6). -/
def State.faultDown (s : State) (r : RailFault) : State :=
  let r := { r with level := 3 }
  let s := { s with sup := { s.sup with faultN := true, level2At := none } }
  match s.sup.seq with
  | .down _ .faultOff => s
  | .down (c :: _) _ =>
    let s := (s.recordFault r).linkLost
    { s with sup := { s.sup with seq := .down ((if (s.rail c).enabled then [] else [c]) ++ s.enabledDown) .faultOff } }
  | .down [] _ => let s := (s.recordFault r).linkLost; s.seqDown s.enabledDown .faultOff
  | _ =>
    if s.power.chip == .faultOff || s.power.chip == .off then s
    else let s := (s.recordFault r).linkLost; s.seqDown s.enabledDown .faultOff

/-! ### The throttle (R66, R69) -/

/-- Plains that the fault of a channel throttles (Table 3-9). -/
def throttled (ch : Nat) : List Nat :=
  if 3 ≤ ch && ch ≤ 6 then (List.range 16).filter fun p => quadOf p == ch - 3
  else if ch = 1 || ch = 2 then List.range 16
  else []

/-- A throttle begins on Plains: its stamp is kept for jobs that run there later, and started LC jobs that hold half-plains of
those Plains are marked (R69). -/
def State.markThrottled (s : State) (ps : List Nat) : State :=
  { s with plains := s.plains.mapIdx fun p (x : Plain) => (if ps.contains p then { x with throttleFrom := some s.now } else x),
           streams := s.streams.map fun x =>
      if x.cls == 0 && s.sched.runs.any (fun r => r.s == x.index && r.hps.any fun h => ps.contains (h / 2)) then
        x.updHead fun j => { j with throttled := true }
      else x }

/-! ### The ladder (Table 3-9) -/

/-- Level 2: EV_RAIL_FAULT_LASTING, FAULT_N, EV_POWER_DOWN_PENDING on every ring; the CP, where it runs, sends
WITHDRAWN and puts the Basins in self-refresh. A level 2 in progress goes on. -/
def State.level2 (s : State) (ch reading : Nat) : State :=
  let s := s.emit [0] EV.railFaultLasting 1 0 (pay [(0, ch), (4, reading)])
  let s := s.fault
  let falling := match s.sup.seq with
    | .down _ .faultOff => true
    | _ => false
  if s.sup.level2At.isSome || falling then s
  else
    let s := { s with sup := { s.sup with level2At := some s.now } }
    let s := s.emit allRings EV.powerDownPending 1 (final := true)
    if s.cpUp then
      let s := s.withdraw
      { s with basins := s.basins.map fun b => { b with psr := true } }
    else s

/-- A fault of a channel (R56): `cause` as in LOG_RAIL_FAULT, 1 being overvoltage. A second fault inside the
recurrence window is a recurrence; an undervoltage on a power-good-only rail is lasting at once; overvoltage
and any fault of VDD_IO18 go to level 3. PAYLOAD byte 0 of the events is the channel, bytes 4 and 5 the
reading (log entry 32). -/
def State.railFaulted (s : State) (ch cause reading : Nat) : State :=
  let r := s.rail ch
  let again := r.windowFrom.any fun w => s.now < w + 100000000
  let lvl := if cause = 1 || ch = 0 then 3 else if again || (cause = 0 && !r.cfg.window) then 2 else 1
  let high := !again || r.level < lvl
  let s := s.updRail ch fun r => { r with
    state := .fault, faults := sat 16 (r.faults + 1), reading := reading,
    runFaults := if again then r.runFaults + 1 else 1,
    runStamp := if high then s.now else r.runStamp,
    level := if high then lvl else r.level,
    windowFrom := if again then r.windowFrom else some s.now }
  let s := if 3 ≤ ch && ch ≤ 6 && r.moving.isSome then
      { s with plains := s.plains.mapIdx fun p x => if quadOf p == ch - 3 then { x with waiting := none } else x }
    else s
  let x := s.rail ch
  let rec' : RailFault := { channel := ch, cause := cause, level := x.level, reading := reading, count := x.runFaults,
                            stamp := x.runStamp }
  if lvl = 3 then s.faultDown rec'
  else
    let s := { s with sup := { s.sup with record := if s.sup.recordDue || s.sup.level2At.isSome then s.sup.record else some rec' } }
    if lvl = 2 then s.level2 ch reading
    else
      let s := (s.emit [0] EV.railFault 0 0 (pay [(0, ch), (4, reading)])).alertBit 0
      (s.updRail ch fun r => { r with throttle := !(throttled ch).isEmpty }).markThrottled (throttled ch)

/-- Highest ladder level in effect (Table 24-8). -/
def State.ladderLevel (s : State) : Nat :=
  match s.sup.seq with
  | .down _ .faultOff => 3
  | _ => if s.power.chip == .faultOff then 3 else if s.sup.level2At.isSome then 2
    else if s.rails.any (fun r => r.windowFrom.isSome) then 1 else 0

end Sys2Proof.Machine
end

