-- ==== Sys2Proof/Machine/Clocks.lean ====
section
/-! DEFINITION. Clocks and device time (chapter 02): Plain generators and core voltage moves, the reference monitor, pulse per second, and the time root. -/
namespace Sys2Proof.Machine
open Sys2Proof

/-! ### Plain generators and core voltages (R14 to R17, R54, R55) -/

/-- Plains of a quadrant. -/
def plainsOf (q : Nat) : List Nat := (List.range 16).filter fun p => quadOf p == q

/-- The core voltage a Plain needs at a frequency code, in 2.5 mV steps inside the range of R54 (log entry 130). -/
def neededVoltage (p code : Nat) : Nat := max 220 (min 340 (Config.neededVoltage p code))

/-- A quadrant's rail has settled at the voltage that a Plain needs for a setting (R16). -/
def State.serves (s : State) (p code : Nat) : Bool :=
  (s.rail (3 + quadOf p)).moving.isNone && neededVoltage p code ≤ (s.rail (3 + quadOf p)).target

/-- The voltage a quadrant's rail may not be set below (R16, R55): what each of its running Plains needs at the highest of its
current setting, its target and a raise that waits, and 0.68 V, since every quadrant has fixed-clock islands at its Saddles
(Table 1-2). -/
def State.voltageFloor (s : State) (quad : Nat) : Nat :=
  ((plainsOf quad).filter fun p => (s.plain p).state == .run || (s.plain p).state == .idle).foldl (fun v p =>
    let x := s.plain p
    max v (neededVoltage p (max (max x.current x.target) (x.waiting.getD 0)))) 272

/-- CP_FREQ_TARGET_SET: a move within the profile's cap and not above the thermal limit (R16). A raise waits until the
quadrant's rail has settled at the voltage for the new setting; a lowering starts at once. -/
def execCpFreqTargetSet (plain code : Nat) (s : State) : Host.Outcome State Fault Refusal :=
  run State.core s fun s =>
    let x := s.plain plain
    if !s.cpUp || x.state == .off || 104 < code || s.prof.freqCap.getD plain 0 < code || x.limit < code then s
    else if x.current < code && !s.serves plain code then
      s.updPlain plain fun x => { x with waiting := some code }
    else s.updPlain plain fun x => { x with target := code, waiting := none }

/-- AVS_VOLTAGE_WRITE in ACTIVE: a core rail's target in 2.5 mV steps, 0.55 to 0.85 V (R54), not below what the quadrant needs
(R16, R55); the window widens until the rail settles. -/
def execAvsVoltageWrite (quad steps : Nat) (s : State) : Host.Outcome State Fault Refusal :=
  run State.core s fun s =>
    let r := s.rail (3 + quad)
    if quad < 4 && s.cpUp && s.power.chip == .active && r.enabled && r.cfg.avs && s.voltageFloor quad ≤ steps && steps ≤ 340 then
      s.updRail (3 + quad) fun r => { r with
        moving := some (r.moving.getD r.target), target := steps, movedAt := s.now, settleFault := false }
    else s

/-- Raises that wait for a quadrant's rail start where the rail now serves them (R16). -/
def State.startRaises (s : State) (quad : Nat) : State :=
  (plainsOf quad).foldl (fun s p =>
    match (s.plain p).waiting with
    | some code => if s.serves p code then s.updPlain p fun x => { x with target := code, waiting := none } else s
    | none => s) s

/-- The exit from QSC ends once every AVS rail has settled at its ACTIVE target (R55): the fixed-clock islands return to their
full clock, and the chip is ACTIVE. -/
def State.qscEnds (s : State) : State :=
  if s.power.rising && s.rails.all (fun r => !r.cfg.avs || !r.enabled || r.moving.isNone) then
    { s with power := { s.power with chip := .active, waking := false, rising := false } }.emit [0] EV.powerState 2 0 0
  else s

/-- AVS_SETTLED: every sample has lain within ±10 mV of the target for 1 µs (which value the last has is a free value, log
entry 35), the window narrows and waiting raises start. -/
def execAvsSettled (quad : Nat) (s : State) : Host.Outcome State Fault Refusal :=
  run State.core s fun s =>
    if quad < 4 && (s.rail (3 + quad)).moving.isSome && (s.rail (3 + quad)).movedAt + 1000 ≤ s.now then
      let (v, s) := s.free
      ((s.updRail (3 + quad) fun r => { r with
        moving := none, settleFault := false, reading := r.target * 2 - 8 + v % 17 }).startRaises quad).qscEnds
    else s

/-- AVS_SETTLE_TIMEOUT: a rail not settled within 100 µs is a fault on it, once for the move, and cancels the raises that wait.
The rail has still to settle, and its window stays widened until it does. -/
def execAvsSettleTimeout (quad : Nat) (s : State) : Host.Outcome State Fault Refusal :=
  run State.core s fun s =>
    let r := s.rail (3 + quad)
    if quad < 4 && r.moving.isSome && !r.settleFault && r.movedAt + 100000 ≤ s.now then
      (s.updRail (3 + quad) fun r => { r with settleFault := true }).railFaulted (3 + quad) 3 r.reading
    else s

/-- PLAIN_FREQ_STEP: one 12.5 MHz step toward the lower of target and thermal limit, 250 ns at least after the last one, which
is 50 MHz per µs (R15, R67). -/
def execPlainFreqStep (plain : Nat) (s : State) : Host.Outcome State Fault Refusal :=
  run State.core s fun s =>
    s.updPlain plain fun x =>
      let goal := min x.target x.limit
      if !x.locked || x.current = goal || !x.stepAt.all (fun t => t + 250 ≤ s.now) then x
      else { x with current := if x.current < goal then x.current + 1 else x.current - 1, stepAt := some s.now }

/-- GENERATOR_LOCK: with VDD_PLL good and its quadrant's core rail on, the generator locks and releases the
Plain's logic from reset (R14). -/
def execGeneratorLock (plain : Nat) (s : State) : Host.Outcome State Fault Refusal :=
  run State.aon s fun s =>
    if (s.rail 1).state == .good && (s.rail (3 + quadOf plain)).enabled then
      s.updPlain plain fun x => { x with locked := true }
    else s

/-! ### The reference (R18 to R21) -/

/-- A loss declared (R19): every generator enters holdover, HOLDOVER is set, EV_REF_LOST once per declared loss. -/
def State.refLoss (s : State) : State :=
  if s.clk.lost then s
  else
    let s := { s with clk := { s.clk with
      holdover := true, lost := true, qualified := false, goodSince := none, outside := 0,
      lossCount := sat 16 (s.clk.lossCount + 1) } }
    (s.emit [0] EV.refLost 0).alertBit 5

/-- REF_FREQ_ESTIMATE every 10 µs, in steps of 50 ppm: the tenth in a row outside ±500 ppm declares a loss (R18); one inside
begins or goes on with the return (R21). -/
def execRefFreqEstimate (ppm50 : Int) (s : State) : Host.Outcome State Fault Refusal :=
  run State.aon s fun s =>
    let out : Bool := ppm50 < -10 || 10 < ppm50
    if !s.clk.estAt.all (fun t => t + 10000 ≤ s.now) then s
    else
      let c := { s.clk with offset := ppm50 * 50, estAt := some s.now }
      if out then
        let s : State := { s with clk := { c with outside := c.outside + 1, goodSince := none } }
        if 10 ≤ s.clk.outside then s.refLoss else s
      else { s with clk := { c with outside := 0, lost := false, goodSince := some (c.goodSince.getD s.now) } }

/-- REF_LOSS_DECLARED by the edge monitor: no edge of REFCLK_SYS for `gap` ns, 2 µs or more (R18). -/
def execRefLossDeclared (gap : Nat) (s : State) : Host.Outcome State Fault Refusal :=
  run State.aon s fun s => if 2000 ≤ gap then s.refLoss else s

/-- REF_QUALIFIED: every estimate has lain inside for 1 ms; the generators start to relock. -/
def execRefQualified (s : State) : Host.Outcome State Fault Refusal :=
  run State.aon s fun s =>
    if s.clk.holdover && !s.clk.lost && s.clk.goodSince.any (fun t => t + 1000000 ≤ s.now) then
      { s with clk := { s.clk with qualified := true } }
    else s

/-- RELOCK_COMPLETE: all generators are locked, HOLDOVER clears, EV_REF_RESTORED. -/
def execRelockComplete (s : State) : Host.Outcome State Fault Refusal :=
  run State.aon s fun s =>
    if s.clk.holdover && s.clk.qualified && !s.clk.lost then
      ({ s with clk := { s.clk with holdover := false } }).emit [0] EV.refRestored 0
    else s

/-! ### Device time (R27 to R31) -/

/-- The time root of the Valley (R370): the lowest chip ID among the members that joined with ROOT = 1, else
among all. A chip outside a Valley is its own. -/
def State.timeRoot (s : State) : Nat :=
  if !s.valley.joined then s.chip
  else
    let all := (s.chip, s.valley.root) :: (s.valley.members.filter fun m => !s.isLost m.chip).map fun m => (m.chip, m.root)
    let roots := (all.filter (·.2)).map (·.1)
    let l := if roots.isEmpty then all.map (·.1) else roots
    l.foldl min (l.headD s.chip)

/-- A correction of device time by `d` ns that must not step: it is removed by slewing (R27). -/
def State.slewBy (s : State) (d : Int) : State := { s with time := { s.time with slew := d } }

/-- Device time loaded with a value (R29, R32): what is still to be slewed is void, and the stamps from which the edge monitor
and the output pulse count time move with it, since neither counts the load as time that has passed. -/
def State.loadTime (s : State) (v : Nat) : State :=
  let d : Int := (v : Int) - s.now
  { s with now := v % 2 ^ 64,
           time := { s.time with slew := 0, lastEdge := s.time.lastEdge + d, ppsRise := s.time.ppsRise + d } }

/-- Distance in ns from a stamp to the nearest whole second; the earlier of two equally near (log entry 33). -/
def toSecond (t : Nat) : Int :=
  let r := t % 1000000000
  if r ≤ 500000000 then -(r : Int) else (1000000000 : Int) - r

/-- PPS_IN_EDGE: an active edge is stamped and acted on by MODE (R29); on a chip that is not the time root SLEW
and STEP act as MONITOR (R31). -/
def execPpsInEdge (rising : Bool) (s : State) : Host.Outcome State Fault Refusal :=
  run State.aon s fun s =>
    if rising == s.time.edge then s
    else
      let s := { s with time := { s.time with stamp := s.now, ppsSeen := true, ppsLost := false, lastEdge := s.now } }
      let mode := if s.timeRoot = s.chip then s.time.mode else min s.time.mode 1
      if mode = 2 then s.slewBy (toSecond s.now)
      else if mode = 3 then
        if s.time.next < s.now && !s.streams.isEmpty then
          { s with time := { s.time with mode := 2, slew := (s.time.next : Int) - s.now } }
        else
          let s := s.loadTime s.time.next
          { s with time := { s.time with mode := 2, stamp := s.now, stepDone := true } }
      else s

/-- PPS_LOST: no edge for 1.5 s (R30). -/
def execPpsLost (s : State) : Host.Outcome State Fault Refusal :=
  run State.aon s fun s =>
    if s.time.mode != 0 && !s.time.ppsLost && decide (s.time.lastEdge + 1500000000 ≤ s.now) then
      (({ s with time := { s.time with ppsLost := true } }).emit [0] EV.ppsLost 0).alertBit 6
    else s

/-- PPS_OUT_RISE, within ±10 ns of a whole second (R28). -/
def execPpsOutRise (s : State) : Host.Outcome State Fault Refusal :=
  run State.aon s fun s =>
    let r := s.now % 1000000000
    if s.time.outEn && !s.time.ppsOut && (r ≤ 10 || 999999990 ≤ r) then
      { s with time := { s.time with ppsOut := true, ppsRise := s.now } }
    else s

/-- PPS_OUT_FALL, 100 µs after the rise. -/
def execPpsOutFall (s : State) : Host.Outcome State Fault Refusal :=
  run State.aon s fun s =>
    if s.time.ppsOut && decide (s.time.ppsRise + 100000 ≤ s.now) then { s with time := { s.time with ppsOut := false } } else s

end Sys2Proof.Machine
end

