-- ==== Sys2Proof/Machine/Mem.lean ====
section
/-! DEFINITION. Allocation of frames (R215, R239, R242): MEM_ALLOC, MEM_FREE, the scrub of a destroyed partition's frames. -/
namespace Sys2Proof.Machine
open Sys2Proof

/-! ### Frames of interleaved and affine ranges -/

/-- Frames of a range of the interleaved view, as ranges of key / 4096 per Basin: whole rows, then the frames
of the first and last row one by one. -/
def rowFrames (live : List Nat) (F n : Nat) : List (Nat × Nat) :=
  let L := live.length
  if n = 0 || L = 0 then [] else
  let lo := F / L
  let hi := (F + n - 1) / L
  let edge (r : Nat) : List (Nat × Nat) := (List.range L).filterMap fun i =>
    let G := r * L + i
    if F ≤ G && G < F + n then
      let k := frameKey (interleave live G).1 (interleave live G).2 0 / 4096
      some (k, k + 1)
    else none
  edge lo ++ (if lo < hi then edge hi else []) ++
  (if lo + 1 < hi then live.map fun b => (frameKey b (lo + 1) 0 / 4096, frameKey b hi 0 / 4096) else [])

/-- Frames of an allocation as ranges of key / 4096. -/
def allocFrames (live : List Nat) (x : Alloc) : List (Nat × Nat) :=
  if x.base < affineBase then rowFrames live (x.base / 4096) (x.size / 4096)
  else [(x.base / 4096, (x.base + x.size) / 4096)]

/-- Whether a range of the interleaved view and a range of one Basin's frames share a frame. -/
def interHits (live : List Nat) (F n b f1 f2 : Nat) : Bool :=
  let L := live.length
  if n = 0 || L = 0 then false else
  let lo := max f1 (F / L)
  let hi := min f2 ((F + n - 1) / L + 1)
  [lo, lo + 1, hi - 1, hi - 2].any fun f =>
    lo ≤ f && f < hi && (deinterleave live b f).any fun G => F ≤ G && G < F + n

/-- Basin and frame range of an affine allocation. -/
def affinePart (x : Alloc) : Nat × Nat × Nat :=
  (keyBasin x.base, keyFrame x.base, keyFrame x.base + x.size / 4096)

/-- Single frames that cannot be handed out, as (Basin, first, end): retired ones and those under scrub. -/
def State.badFrames (s : State) : List (Nat × Nat × Nat) :=
  let at' (k e : Nat) := (keyBasin (k * 4096), keyFrame (k * 4096), keyFrame (k * 4096) + (e - k))
  s.mem.retired.map (fun k => at' k (k + 1)) ++ s.mem.scrubbing.map (fun r => at' r.1 r.2)

/-- Whether an interleaved range is free. -/
def State.freeInter (s : State) (F n : Nat) : Bool :=
  let live := s.mem.live
  65536 ≤ F && F + n ≤ live.length * Config.allocatableFrames &&
  s.mem.allocs.all (fun x =>
    if x.base < affineBase then x.base / 4096 + x.size / 4096 ≤ F || F + n ≤ x.base / 4096
    else let (b, f1, f2) := affinePart x
      !interHits live F n b f1 f2) &&
  s.badFrames.all fun r => !interHits live F n r.1 r.2.1 r.2.2

/-- Whether a range of one Basin's frames is free. -/
def State.freeAffine (s : State) (b f n : Nat) : Bool :=
  let live := s.mem.live
  f + n ≤ Config.allocatableFrames && !interHits live 0 65536 b f (f + n) &&
  s.mem.allocs.all (fun x =>
    if x.base < affineBase then !interHits live (x.base / 4096) (x.size / 4096) b f (f + n)
    else let (b', f1, f2) := affinePart x
      b' != b || f2 ≤ f || f + n ≤ f1) &&
  s.badFrames.all fun r => r.1 != b || r.2.2 ≤ f || f + n ≤ r.2.1

/-- The least element of a list that passes a test. -/
def leastOf (l : List Nat) (ok : Nat → Bool) : Option Nat := (l.filter ok).min?

/-- Basin frame numbers at which a run of frames that are not free begins or ends, affine allocations and bad frames; none
where there is no such run. -/
def State.frameEdges (s : State) : List Nat :=
  let L := s.mem.live.length
  let affine := ((s.mem.allocs.filter fun x => affineBase ≤ x.base).map fun x => (affinePart x).2) ++ s.badFrames.map (·.2)
  if affine.isEmpty then []
  else affine.flatMap (fun r => [r.1, r.2]) ++ 65536 / L ::
    (s.mem.allocs.filter fun x => x.base < affineBase).flatMap fun x => [x.base / 4096 / L, (x.base + x.size) / 4096 / L]

/-- Where the lowest free interleaved range may begin: at the bottom, at the end of an interleaved allocation, or between the
frames of one Basin that are not free. The places that such frames leave free repeat every 64 frame numbers (R238), so those
near an edge stand for all. -/
def State.interStarts (s : State) : List Nat :=
  let L := s.mem.live.length
  65536 :: ((s.mem.allocs.filter fun x => x.base < affineBase).map fun x => x.base / 4096 + x.size / 4096) ++
    (s.frameEdges.dedup.flatMap fun e => (List.range (68 * L)).map fun i => (e - 2) * L + i)

/-- Where a free affine range may end: at the top of the allocatable frames, or just below a frame that is not
free. -/
def State.affineEnds (s : State) (b : Nat) : List Nat :=
  let L := s.mem.live.length
  Config.allocatableFrames :: (s.mem.allocs.flatMap (fun x =>
    if x.base < affineBase then [x.base / 4096 / L, x.base / 4096 / L + 1]
    else if (affinePart x).1 = b then [(affinePart x).2.1] else []) ++
    (s.badFrames.filter (·.1 == b)).map (·.2.1))

/-- The local address of a free range of `n` frames: interleaved from the bottom, affine from the top (R242). -/
def State.findFrames (s : State) (affine : Bool) (b n : Nat) : Option Nat :=
  if affine then
    ((s.affineEnds b).filterMap fun e => if n ≤ e && s.freeAffine b (e - n) n then some (e - n) else none).max?.map
      fun f => frameKey b f 0
  else (leastOf s.interStarts fun F => s.freeInter F n).map (· * 4096)

/-- Key ranges written to zero, frames given as ranges of key / 4096. -/
def State.zeroFrames (s : State) (l : List (Nat × Nat)) : State :=
  { s with mem := l.foldl (fun m r => m.zero (r.1 * 4096) (r.2 * 4096)) s.mem }

/-- Memory handed out: every frame marked ZERO, so that it reads zero (R242). -/
def State.alloc (s : State) (x : Alloc) : State :=
  let s := s.zeroFrames (allocFrames s.mem.live x)
  { s with mem := { s.mem with allocs := s.mem.allocs ++ [x] } }

/-- Frames no longer allocated: those marked RETIRE_ON_FREE become RETIRED (Table 12-3). -/
def State.release (s : State) (x : Alloc) : State :=
  let fr := allocFrames s.mem.live x
  let mine (k : Nat) : Bool := fr.any fun r => r.1 ≤ k && k < r.2
  { s with mem := { s.mem with
      allocs := s.mem.allocs.erase x,
      retired := s.mem.retired ++ s.mem.retireOnFree.filter mine,
      retireOnFree := s.mem.retireOnFree.filter fun k => !mine k } }

/-! ### Commands -/

/-- The range a MEM_ALLOC gets. A Basin that is not live gives none. -/
def State.memFind (s : State) (e : Block) : Option Nat :=
  let affine := eParam e 8 0 1 == 1
  let n := eParam e 0 0 64 / 4096
  if 2 ^ 40 ≤ eParam e 0 0 64 then none
  else if affine && !s.mem.live.contains (eParam e 8 1 3) then none
  else s.findFrames affine (eParam e 8 1 3) n

def chkMemAlloc (s : State) (e : Block) (_ : Taken) : Option (Nat × Nat) :=
  if (s.memFind e).isNone then some (ST.noMemory, 0) else none

def effMemAlloc (s : State) (r : Req) (t : Taken) : State :=
  match s.memFind t.entry with
  | some a => (s.alloc { part := mbPart r.m, base := a, size := eParam t.entry 0 0 64 }).complete r ST.ok a
  | none => s

/-- MEM_ALLOC. -/
def execMemAlloc (m : Nat) (c : Cmd) (s : State) : Host.Outcome State Fault Refusal :=
  run State.core s fun s => lolin 0x0501 m c s chkMemAlloc effMemAlloc

/-- The allocation of a partition that begins at an address. -/
def State.allocAt (s : State) (p a : Nat) : Option Alloc := s.mem.allocs.find? fun x => x.part == p && x.base == a

/-- Whether an allocation backs a mapped Ford window or a KV pool (R170). -/
def State.inUse (s : State) (x : Alloc) : Bool :=
  let meets (a n : Nat) : Bool := a < x.base + x.size && x.base < a + n
  (s.fn (x.part + 1)).windows.any (fun w => w.mapped && meets w.base w.len) ||
  s.kv.any fun k => k.exist && s.isLocal k.backing && meets (vLocal k.backing) (k.pages * k.pageSize)

def chkMemFree (m : Nat) (s : State) (e : Block) (_ : Taken) : Option (Nat × Nat) :=
  match s.allocAt (mbPart m) (eParam e 0 0 40) with
  | none => some (ST.addrUnmapped, 0)
  | some x => if s.inUse x then some (ST.memInUse, 0) else none

def effMemFree (s : State) (r : Req) (t : Taken) : State :=
  match s.allocAt (mbPart r.m) (eParam t.entry 0 0 40) with
  | some x => (s.release x).complete r ST.ok
  | none => s

/-- MEM_FREE. -/
def execMemFree (m : Nat) (c : Cmd) (s : State) : Host.Outcome State Fault Refusal :=
  run State.core s fun s => lolin 0x0502 m c s (chkMemFree m) effMemFree

/-! ### The scrub after PART_DESTROY (R215) -/

/-- Frames of a destroyed partition, under scrub from now on. -/
def State.scrubAll (s : State) (p : Nat) : State :=
  (s.mem.allocs.filter (·.part == p)).foldl (fun s x =>
    let fr := allocFrames s.mem.live x
    let s := { s with mem := { s.mem with allocs := s.mem.allocs.erase x } }
    { s with mem := { s.mem with scrubbing := s.mem.scrubbing ++ fr } }) s

/-- One frame cut out of a list of ranges. -/
def cutFrame (k : Nat) : List (Nat × Nat) → List (Nat × Nat)
  | [] => []
  | (a, b) :: r =>
    (if k < a || b ≤ k then [(a, b)]
     else (if a < k then [(a, k)] else []) ++ (if k + 1 < b then [(k + 1, b)] else [])) ++ cutFrame k r

/-- FRAME_SCRUB_DONE: a frame under scrub is zero and free, or RETIRED where it was marked so. -/
def execFrameScrubDone (b f : Nat) (s : State) : Host.Outcome State Fault Refusal :=
  run State.core s fun s =>
    let k := frameKey b f 0 / 4096
    if s.mem.scrubbing.any (fun r => r.1 ≤ k && k < r.2) then
      let s := s.zeroFrames [(k, k + 1)]
      { s with mem := { s.mem with
          scrubbing := cutFrame k s.mem.scrubbing,
          retired := if s.mem.retireOnFree.contains k then s.mem.retired ++ [k] else s.mem.retired,
          retireOnFree := s.mem.retireOnFree.filter (· != k) } }
    else s

end Sys2Proof.Machine
end

