-- ==== Sys2Proof/Machine/PartReset.lean ====
section
/-! DEFINITION. The partition reset of Table 11-1 step by step (R216 to R220, R230, R234) and the destruction of a partition (R165, R215). -/
namespace Sys2Proof.Machine
open Sys2Proof

/-! ### What a partition owns and loses -/

/-- A row under way whose context is gone or flushed: it runs to its end and does nothing more. -/
def State.voidRow (s : State) (n : Nat) : State :=
  { s with media := { s.media with cores := s.media.cores.map fun (c : Core) =>
    (if c.row = some n then { c with void := true } else c) } }

/-- A media context's reservations, buffers and number given back. -/
def State.dropEnc (s : State) (x : Enc) : State :=
  let s := (s.voidRow x.index).releaseResvs fun r => x.resv.contains r.id
  let s := match s.allocAt x.part x.buffer with
    | some a => s.release a
    | none => s
  { s with media := { s.media with encs := s.media.encs.filter (·.index != x.index) } }

/-- A decoder gone: slots that it still owns are POISONED with cause CONSUMER_RESET (R137). -/
def State.dropDec (s : State) (x : Dec) : State :=
  let s := (x.slots.filter fun k => ((s.window (x.part + 1) k.1).slot k.2.1).owner == 2).foldl
    (fun s k => s.poisonSlot (x.part + 1) k.1 k.2.1 2) s
  let s := (s.voidRow (2048 + x.index)).releaseResvs fun r => x.resv.contains r.id
  { s with media := { s.media with decs := s.media.decs.filter (·.index != x.index) } }

/-- Media contexts of a partition lost (Table 4-7). -/
def State.dropMedia (s : State) (p : Nat) : State :=
  let s := (s.media.encs.filter (·.part == p)).foldl State.dropEnc s
  (s.media.decs.filter (·.part == p)).foldl State.dropDec s

/-- Ford windows of a function lost. -/
def State.dropWindows (s : State) (f : Nat) : State := (List.range 64).foldl (fun s w => s.unmap f w) s

/-- Sync objects of a partition freed; remote waiters on them are refused (R230). -/
def State.dropObjs (s : State) (p : Nat) : State :=
  (s.sync.objs.filter (·.part == p)).foldl (fun s x =>
    let s := x.waiters.foldl (fun s w =>
      match s.valley.heldReqs.find? (fun h => h.1.src == w.owner.chip && h.1.tag == w.tag) with
      | some (q, _) =>
        if w.owner.chip = s.chip then s
        else (s.dedup q mRefuse (leBytes 2 ST.partitionResetting)).refuseMsg q ST.partitionResetting
      | none => s) s
    { s with sync := { s.sync with
        objs := s.sync.objs.filter (·.index != x.index), free := s.sync.free.give x.index x.gen } }) s

/-- KV pools of a partition lost. -/
def State.dropPools (s : State) (p : Nat) : State :=
  (List.range 8).foldl (fun s n => if (s.pool n).exist && (s.pool n).part == p then s.dropPool n else s) s

/-- The key of the first byte of a save slot (R203): the suspend area's eight slots of a half-plain, in the Basin of its number
modulo 8 (log entry 144). -/
def slotKey (h k : Nat) : Nat := frameKey (h % 8) (Config.allocatableFrames + (h / 8 * 8 + k) * 64) 0

/-- Stores, line buffers and save slots of half-plains written to zero (step 5). -/
def State.zeroHalves (s : State) (hs : List Nat) : State :=
  { s with mem := hs.foldl (fun (m : Memory) h =>
      (({ m with panels := m.panels.filter (·.half != h) }.zero (storeBase + h * storeSize) (storeBase + (h + 1) * storeSize)).zero
        (lineBase + h * 0x100000) (lineBase + h * 0x100000 + lineSize)).zero (slotKey h 0) (slotKey h 8)) s.mem }

/-- Frames of a partition as ranges of key / 4096. -/
def State.partFrames (s : State) (p : Nat) : List (Nat × Nat) :=
  (s.mem.allocs.filter (·.part == p)).flatMap (allocFrames s.mem.live)

/-- Basins that hold frames of a partition. -/
def State.partBasins (s : State) (p : Nat) : List Nat :=
  (List.range 8).filter fun b => (s.partFrames p).any fun r => keyBasin (r.1 * 4096) == b

/-- The key of a confidential partition replaced in every Basin (R218, R255); frames with ZERO = 1 go on reading zero (R241). -/
def State.rotateKeys (s : State) (p : Nat) : State :=
  let s := { s with mem := (s.partFrames p).foldl (fun (m : Memory) (r : Nat × Nat) => m.rotateFilled (r.1 * 4096) (r.2 * 4096)) s.mem }
  s.updPart p fun x => { x with keyEpoch := x.keyEpoch + 1 }

/-! ### The steps -/

/-- A reservation ID that no record holds (log entry 76). -/
def State.freeResv (s : State) : Nat :=
  let used := s.ledger.resvs.map (·.id)
  pickFree s.now ((List.range Config.reservationRecords).filter fun i => !used.contains i)

/-- A reset-scrub holding in a Basin (R218). -/
def State.scrubHolding (s : State) (p b : Nat) : State :=
  let q := (s.part p).cfg.quota.getD 0 0
  let amount := q * s.prof.admitPct.getD 0 0 * Config.basinRate / 10000
  if q = 0 then s
  else { s with ledger := { s.ledger with resvs := s.ledger.resvs ++
    [{ id := s.freeResv, kind := 0, index := b, rank := 0, amount := amount, part := p, committed := s.now, scrub := true }] } }

/-- Registers of a function that its reset loses (Table 24-4, Table 24-5, Table 24-7, R459): windows and their counts,
the MSI-X table, coalescing, the unmapped-access counts. -/
def Fn.lose (f : Nat) (x : Fn) : Fn :=
  { x with windows := List.replicate 64 {}, vecs := (Fn.atReset f).vecs, coalCq := {}, coalEq := {}, unmappedRd := 0,
           unmappedWr := 0, latch := [], hiLatch := [] }

/-- Step 7 is due: the mailbox is cleared and the partition reports READY at its own row, so that the host can read what
the steps before reported on the rings. -/
def State.mailboxDue (s : State) (p : Nat) : State := s.updPart p fun x => { x with step := 7 }

/-- Step 7: what waits on the mailbox is lost with its rings, ring registers, ENABLE and request-ID window; the function's MSI-X
table and pending bits too, as R459 states it (DEDUCED against Table 4-7, log entry 138). -/
def State.clearMailbox (s : State) (p : Nat) : State :=
  ((s.updMb (p + 1) fun _ => {}).updFn (p + 1) (Fn.lose (p + 1))).updPart p fun x => { x with step := 8 }

/-- Steps 4 to 6 once no stream is left: reservations, objects, pools, media and windows go, waiting commands
end with ST_ABORTED_BY_RESET, stores are scrubbed, and HBM is handled under R218; under a grant of INVASIVE in SECURED the shared
key is replaced instead (R422). -/
def State.partScrub (s : State) (p : Nat) : State :=
  let s := s.releaseResvs fun r => r.part == p
  let s := (s.dropPools p).dropMedia p
  let s := (s.mb (p + 1)).taken.foldl (fun s t => s.complete ⟨p + 1, eId t.entry⟩ ST.abortedByReset) s
  let s := s.dropWindows (p + 1)
  let s := s.zeroHalves (s.hpsOf p)
  let x := s.part p
  if x.cfg.confidential || (s.sec.lifecycle == 2 && !s.sec.unlock.isEmpty) then (s.rotateKeys p).mailboxDue p
  else if x.cfg.scrubOnReset && !(s.partBasins p).isEmpty then
    let bs := s.partBasins p
    bs.foldl (fun s b => s.scrubHolding p b) (s.updPart p fun x => { x with step := 6, scrub := bs })
  else s.mailboxDue p

/-- Whether a reset of a partition stands at a step from which it can go on: with Solram in ERROR it stops there (Hard corners of
chapter 21). -/
def State.atStep (s : State) (p n : Nat) : Bool := (s.part p).step == n && !s.sec.error

/-- Step 4 goes on to step 5 when the last stream of a partition in reset is gone. -/
def State.partStep4 (s : State) (p : Nat) : State :=
  if s.atStep p 4 && s.streams.all (·.owner != p) then s.partScrub p else s

/-- Step 3 begins once no descriptor of the partition runs: the masters of its half-plains are reset, and the tags of their reads
tombstoned (R233). -/
def State.partStep3 (s : State) (p : Nat) : State :=
  if s.atStep p 2 && s.sched.runs.all (·.part != p) then
    let s := s.updPart p fun x => { x with step := 3 }
    ((s.hpsOf p).foldl State.resetHalf s).tombstone fun j => (s.stream? j.1).any (·.owner == p)
  else s

/-- A PART reset begins (R216): admission closes, Plains in RET start their exit, every running descriptor is
marked to stop at its tile boundary, and saved state of pre-empted ones is discarded. -/
def State.partReset (s : State) (p : Nat) : State :=
  if !(s.part p).exist || (s.part p).step != 0 then s
  else
    let s := s.updPart p fun x => { x with
      step := 2, resetAt := s.now, state := if x.state == .destroying then .destroying else .resetting }
    let s := (s.hpsOf p).foldl (fun s h => if (s.plain (h / 2)).state == .ret then
      s.updPlain (h / 2) (fun y => { y with exiting := true }) else s) s
    let mine (r : Run) : Bool := r.part == p
    let s := { s with sched := { s.sched with
      runs := (s.sched.runs.filter fun r => !(mine r && r.hps.isEmpty)).map fun r =>
        (if mine r then { r with marked := true } else r) } }
    s.partStep3 p

/-- A partition gone (R165, R214, R215): its final accounting on the admin ring, its frames under scrub, its key
zeroised, its half-plains unowned. -/
def State.partGone (s : State) (p : Nat) : State :=
  let x := s.part p
  let s := s.emit [0] EV.acctFinal 2 (hPart p) (pay [(0, x.totals.getD 0 0), (8, x.totals.getD 1 0)]) true (some p)
  let s := s.scrubAll p
  let s := { s with sec := { s.sec with keys := s.sec.keys.filter (· != p) } }
  s.updPart p fun _ => { keyEpoch := x.keyEpoch + 1 }

/-- Whether the admin ring has the final accounting of a partition still to be written (R144, R165). -/
def State.finalHeld (s : State) (p : Nat) : Bool := (s.mb 0).hold.any fun e => e.code == EV.acctFinal && e.source == hPart p

/-- PART_DESTROYs of destroyed partitions complete once EV_ACCT_FINAL has been written on the admin ring (R165). -/
def State.destroyDue (s : State) : State :=
  let due : List Req := (s.destroyed.filter fun x => !s.finalHeld x.1).map (·.2)
  let t : State := { s with destroyed := s.destroyed.filter fun x => s.finalHeld x.1 }
  t.completeAll due ST.ok

/-- Step 8 (R220): PART_RESETs complete, or the partition is destroyed and PART_DESTROYs complete; one that
came during the reset starts a sequence of its own. A STOP_INTERFACE has ended in CONFIG_UNLOCKED (R123). -/
def State.partReady (s : State) (p : Nat) : State :=
  let x := s.part p
  let s := if x.stopTdi then s.updFn (p + 1) fun f => { f with tdi := 0, stopping := false } else s
  if x.state == .destroying then
    let s := (s.partGone p).completeAll x.resetReqs ST.ok
    State.destroyDue { s with destroyed := s.destroyed ++ x.destroyReqs.map fun r => (p, r) }
  else
    let s := s.updPart p fun y => { y with
      step := 0, state := if y.destroyAfter then .destroying else .ready, resetReqs := [], destroyAfter := false,
      stopTdi := false }
    let s := s.completeAll x.resetReqs ST.ok
    if x.destroyAfter then s.partReset p else s

/-! ### Rows -/

/-- Whether a request still holds a tag of the masters of a partition. -/
def Outstanding.drains (o : Outstanding) (p : Nat) : Bool := o.msg.part == p && o.msg.typ != mSyncOp && o.unit.isSome

/-- PART_DRAIN_DONE: no tag of the partition's masters is outstanding; the reset goes on: its sync objects are freed, so that no
wait of another chip is granted by a reset of this partition's streams (R230), and every stream is torn down with cause 0x01
(R216, R234). -/
def execPartDrainDone (p : Nat) (s : State) : Host.Outcome State Fault Refusal :=
  run State.core s fun s =>
    if s.atStep p 3 && s.valley.outstanding.all (fun o => !o.drains p) then
      let s := (s.hpsOf p).foldl (fun s h => (s.masterDone 0 h).masterDone 1 h) s
      let s := (s.dropObjs p).updPart p fun x => { x with step := 4 }
      let tear (x : Stream) : Stream := if x.owner == p then
          { x with state := .teardown, endCause := some (1, 0xFFFF, (x.head?.map (·.number)).getD 0) } else x
      let s := { s with streams := s.streams.map tear }
      s.partStep4 p
    else s

/-- TAG_FORCE_RETIRE: 64 µs after a master's reset began, its remaining tags are retired and logged (R234): what they would have
brought is absorbed, and the tags come back under a new epoch. -/
def execTagForceRetire (kind unit count : Nat) (s : State) : Host.Outcome State Fault Refusal :=
  run State.core s fun s =>
    match s.sched.masters.find? fun x => x.kind == kind && x.unit == unit && x.resetAt.any (· + 64000 ≤ s.now) with
    | none => s
    | some _ =>
      let s := s.logOnly EV.tagForceRetire 2 (pay [(0, kind), (1, unit % 256), (2, count % 65536)])
      let s := { s with valley := { s.valley with outstanding := s.valley.outstanding.map fun (o : Outstanding) =>
        (if kind == 0 && o.unit == some unit && o.epoch != s.epochOf 0 unit then
          { o with unit := none, job := none, tomb := some s.now } else o) } }
      (s.resetMaster kind unit).masterDone kind unit

/-- A closing stream whose last job has ended goes into TEARDOWN (R168, R193). -/
def State.closeEnds (s : State) (i : Nat) : State :=
  match s.stream? i with
  | some x => if x.state == .closing && x.items.isEmpty then s.beginTeardown i 0 0xFFFF 0 else s
  | none => s

/-- STREAM_TEARDOWN: the sequence runs, for a stream that faulted, that is reset with its partition, or whose close has
drained; what it set free goes on, and the last one of a partition in reset lets that reset go on. -/
def execStreamTeardown (i : Nat) (s : State) : Host.Outcome State Fault Refusal :=
  run State.core s fun s =>
    let s := s.closeEnds i
    match s.stream? i with
    | none => s
    | some x => if s.canTear i then ((s.tearDown i).drainWindows.partStep4 x.owner).advance else s

/-- PART_HBM_SCRUB_DONE: the partition's frames in a Basin are zero, and its holding there ends (R218). -/
def execPartHbmScrubDone (p b : Nat) (s : State) : Host.Outcome State Fault Refusal :=
  run State.core s fun s =>
    if s.atStep p 6 && (s.part p).scrub.contains b then
      let s := s.zeroFrames ((s.partFrames p).filter fun r => keyBasin (r.1 * 4096) == b)
      let s := s.releaseResvs fun r => r.scrub && r.part == p && r.index == b
      let s := s.updPart p fun x => { x with scrub := x.scrub.filter (· != b) }
      if (s.part p).scrub.isEmpty then s.mailboxDue p else s
    else s

end Sys2Proof.Machine
end

