-- ==== Sys2Proof/Machine/Flash.lean ====
section
/-! DEFINITION. The flash and what the device keeps in it (Table 5-3): profiles with their validity (R100 to R104), the override record (R107), boot selectors and image headers (R424, R432), and the defect record (R87). -/
namespace Sys2Proof.Machine
open Sys2Proof

/-! ### Bytes -/

/-- Where bytes are read from: flash, or a Ford slot. -/
abbrev Reader := Nat → Byte

def State.flashByte (s : State) (base : Nat) : Reader := fun i => (cellAt s.flash (base + i)).getD 0xFF
/-- Flash programmed from `a` on. -/
def State.program (s : State) (a : Nat) (l : List Byte) : State := { s with flash := cellPuts 0xFF s.flash a l }
/-- Flash erased. -/
def State.eraseFlash (s : State) (a n : Nat) : State := { s with flash := cellClear s.flash a (a + n) }

/-- A little-endian field of `n` bytes. -/
def field (rd : Reader) (o n : Nat) : Nat := leNat ((List.range n).map fun i => rd (o + i))
/-- `n` bytes. -/
def chunk (rd : Reader) (o n : Nat) : List Byte := (List.range n).map fun i => rd (o + i)
/-- Whether `n` bytes are zero. -/
def zeros (rd : Reader) (o n : Nat) : Bool := (List.range n).all fun i => rd (o + i) == 0

/-! ### Rail supervision entries (R42 to R44, Table 3-2) -/

/-- Rails with a sense converter (Table 3-1). -/
def senseRail (ch : Nat) : Bool := (1 ≤ ch && ch ≤ 6) || ch == 11

def railEntry (rd : Reader) (o : Nat) : RailCfg :=
  { used := bit (field rd o 1) 0, window := bit (field rd o 1) 1, avs := bit (field rd o 1) 2,
    setpoint := bits (field rd (o + 2) 2) 0 10, uv := field rd (o + 4) 1, ov := field rd (o + 5) 1,
    filter := field rd (o + 6) 1, onTimeout := field rd (o + 7) 1, pmbAddr := bits (field rd (o + 8) 1) 0 7,
    pmbPage := field rd (o + 9) 1, avsSel := bits (field rd (o + 10) 1) 0 4, offWait := field rd (o + 11) 1 }

/-- Reserved bits of a rail entry are zero. -/
def railReserved (rd : Reader) (o : Nat) : Bool :=
  bits (field rd o 1) 3 5 == 0 && field rd (o + 1) 1 == 0 && bits (field rd (o + 2) 2) 10 6 == 0 &&
  !bit (field rd (o + 8) 1) 7 && bits (field rd (o + 10) 1) 4 4 == 0 && field rd (o + 12) 4 == 0

/-- SETPOINT range of a channel in 2.5 mV steps (Table 3-1, R44); a spare's is the board's. -/
def setpointOk (ch v : Nat) : Bool :=
  if 3 ≤ ch && ch ≤ 6 then 220 ≤ v && v ≤ 340
  else if ch = 2 then 300 ≤ v && v ≤ 360
  else if 14 ≤ ch then true
  else
    let n := (RailCfg.default ch).setpoint
    n * 95 ≤ v * 100 && v * 100 ≤ n * 105

/-- Field limits of a rail entry (Table 3-2, R44). A channel that is not sequenced is not judged. -/
def RailCfg.inLimits (c : RailCfg) (ch : Nat) : Bool :=
  if !c.used then 14 ≤ ch
  else
    (!c.avs || (3 ≤ ch && ch ≤ 6)) && setpointOk ch c.setpoint && 4 ≤ c.uv && c.uv ≤ 80 && 4 ≤ c.ov && c.ov ≤ 80 &&
    1 ≤ c.onTimeout && c.onTimeout ≤ 20 && 1 ≤ c.offWait && c.offWait ≤ 50

/-- The limits of R42 in SECURED. -/
def RailCfg.secured (c : RailCfg) (ch : Nat) : RailCfg :=
  { c with window := c.window || senseRail ch, uv := min c.uv 20, ov := min c.ov 20, filter := min c.filter 19 }

/-- A stored entry as applied, and whether it was changed (R42, R44). MODE 1 asks nothing of a channel without a sense converter,
which is judged by its power-good (log entry 36). -/
def State.applyRail (s : State) (ch : Nat) (c : RailCfg) : RailCfg × Bool :=
  let d := if c.inLimits ch then c else RailCfg.default ch
  let d := if s.sec.lifecycle = 2 then d.secured ch else d
  ({ d with window := d.window && senseRail ch }, d != c)

/-! ### Profiles (Table 5-9) -/

def partEntry (rd : Reader) (o : Nat) : PartCfg :=
  let b := field rd (o + 4) 1
  { hpMask := field rd o 4, confidential := bit b 0, retainKeys := bit b 1, scrubOnReset := bit b 2,
    acctOverride := bit b 3, acctCount := bit b 4, mediaShare := field rd (o + 5) 1,
    quota := (List.range 4).map fun i => field rd (o + 8 + i) 1 }

def profileOf (rd : Reader) : Profile :=
  { chipId := bits (field rd 0x080 2) 0 12, acctCount := bit (field rd 0x082 1) 0, retEn := bit (field rd 0x083 1) 0,
    retDelay := field rd 0x084 2, admitPct := (List.range 4).map fun i => field rd (0x088 + i) 1,
    throttleDuty := (List.range 8).map fun i => bits (field rd (0x08C + i) 1) 0 3,
    threshOffset := (List.range 8).map fun i => bits (field rd (0x08C + i) 1) 4 4,
    freqCap := (List.range 16).map fun i => field rd (0x0C0 + i) 1,
    passEn := field rd 0x100 3, width := (List.range 24).map fun i => bits (field rd (0x104 + i) 1) 0 2,
    elec := (List.range 24).map fun i => bits (field rd (0x104 + i) 1) 2 2,
    rails := (List.range 16).map fun i => railEntry rd (0x180 + 16 * i),
    parts := (List.range 32).map fun i => partEntry rd (0x280 + 32 * i) }

/-- The bytes a profile's CRC and signature cover. -/
def profileBody (rd : Reader) : List Byte := chunk rd 0 16 ++ chunk rd 0x80 0x600

/-- Fields of a profile in their ranges (R101). The field limits of a rail entry are R44's and do not make a profile
invalid (log entry 34). -/
def profileRanges (p : Profile) : Bool :=
  1 ≤ p.retDelay && p.retDelay ≤ 1000 && p.admitPct.all (fun a => 50 ≤ a && a ≤ 90) &&
  p.throttleDuty.all (fun d => 1 ≤ d) && p.threshOffset.all (· ≤ 10) && p.freqCap.all (· ≤ 104) &&
  p.width.all (· ≤ 2) && p.elec.all (· ≤ 2) && p.parts.all (fun x => x.mediaShare ≤ 100 && x.quota.all (· ≤ 100))

/-- Reserved bits of a profile are zero (R101). `tail` says so of the bytes past 0x680. -/
def profileReserved (rd : Reader) (tail : Bool) : Bool :=
  bits (field rd 7 1) 1 7 == 0 && zeros rd 0x14 12 && bits (field rd 0x080 2) 12 4 == 0 &&
  bits (field rd 0x082 1) 1 7 == 0 && bits (field rd 0x083 1) 1 7 == 0 && zeros rd 0x086 2 &&
  (List.range 8).all (fun i => !bit (field rd (0x08C + i) 1) 3) && zeros rd 0x094 44 && zeros rd 0x0D0 48 &&
  zeros rd 0x103 1 && (List.range 24).all (fun i => bits (field rd (0x104 + i) 1) 4 4 == 0) && zeros rd 0x11C 100 &&
  (List.range 16).all (fun i => railReserved rd (0x180 + 16 * i)) &&
  (List.range 32).all (fun i => bits (field rd (0x284 + 32 * i) 1) 5 3 == 0 && zeros rd (0x286 + 32 * i) 2 &&
    zeros rd (0x28C + 32 * i) 20) && tail

/-- No two HP_MASK values share a bit. -/
def masksDisjoint : List PartCfg → Bool
  | [] => true
  | x :: r => r.all (fun y => x.hpMask &&& y.hpMask == 0) && masksDisjoint r

/-- The outcome of R101: 0 valid, 1 not valid, 2 a signature that fails where SECURED asks for one. -/
def State.profileCheck (s : State) (rd : Reader) (index : Nat) (tail : Bool) : Nat :=
  if !(field rd 0 4 == 0x46505A4B && field rd 4 2 == 1 && field rd 6 1 == index && field rd 8 4 == 0x600) then 1
  else if field rd 0x10 4 != crc32c (profileBody rd) then 1
  else
    let p := profileOf rd
    if !(profileRanges p && profileReserved rd tail && masksDisjoint p.parts &&
        (p.parts.map (·.mediaShare)).sum ≤ 100 &&
        (List.range 4).all (fun k => (p.parts.map (fun x => x.quota.getD k 0)).sum ≤ 100)) then 1
    else
      let signed := bit (field rd 7 1) 0
      let good := signed && Config.ecdsaVerify s.sec.ownerPub (profileBody rd) (chunk rd 0x20 96)
      if s.sec.lifecycle = 2 then (if good then 0 else 2)
      else if signed && !good then 1 else 0

def profileBase (i : Nat) : Nat := 0x10000 + i * 0x10000

/-- Whether the reserved tail of a stored profile is zero. -/
def State.flashTail (s : State) (i : Nat) : Bool :=
  let b := profileBase i
  let l := s.flash.filter fun c => b + 0x680 ≤ c.1 && c.1 < b + 0x10000
  l.length == 0x10000 - 0x680 && l.all (·.2 == 0)

/-- The check of a stored profile. -/
def State.storedCheck (s : State) (i : Nat) : Nat := s.profileCheck (s.flashByte (profileBase i)) i (s.flashTail i)

/-- The digest R418 and R419 report of the active profile; the built-in default's is that of no bytes. -/
def State.profileDigest (s : State) : List Byte :=
  leBytes 48 (Config.sha384 (if s.boot.defaultUsed then [] else chunk (s.flashByte (profileBase s.boot.active)) 0 0x10000)).toNat

/-! ### The override record (R107) -/

/-- A copy that passes MAGIC and CRC: SEQ, VALID, INDEX. -/
def State.overrideCopy (s : State) (k : Nat) : Option (Nat × Bool × Nat) :=
  let rd := s.flashByte (0x2000 + k * 0x1000)
  if field rd 0 4 = 0x564F5A4B && field rd 12 4 = crc32c (chunk rd 0 12) then
    some (field rd 4 4, bit (field rd 8 1) 0, bits (field rd 9 1) 0 2)
  else none

/-- The current copy: its number and contents. -/
def State.overrideNow (s : State) : Option (Nat × Nat × Bool × Nat) :=
  match s.overrideCopy 0, s.overrideCopy 1 with
  | none, none => none
  | some a, none => some (0, a)
  | none, some b => some (1, b)
  | some a, some b => if a.1 < b.1 then some (1, b) else some (0, a)

/-- INDEX of the record in force. -/
def State.overrideIndex (s : State) : Option Nat :=
  match s.overrideNow with
  | some (_, _, true, i) => some i
  | _ => none

/-- A write of the record: the other copy, SEQ one higher; copy 0 with SEQ 1 where there is none. -/
def State.writeOverride (s : State) (valid : Bool) (index : Nat) : State :=
  let (k, q) := match s.overrideNow with
    | none => (0, 1)
    | some (k, q, _) => (1 - k, q + 1)
  let l := leBytes 4 0x564F5A4B ++ leBytes 4 q ++ leBytes 1 (b2n valid) ++ leBytes 1 index ++ leBytes 2 0
  (s.eraseFlash (0x2000 + k * 0x1000) 0x1000).program (0x2000 + k * 0x1000) (l ++ leBytes 4 (crc32c l) ++ leBytes 16 0)

/-! ### The defect record (R87, Table 5-4) -/

/-- An entry. -/
structure Defect where
  typ : Nat
  source : Nat
  state : Nat
  temp : Int
  loc : Nat
deriving DecidableEq, Repr

def defectBase : Nat := 0x50000
/-- A slot's 16 bytes. -/
def State.defectSlot (s : State) (i : Nat) : Reader := s.flashByte (defectBase + 16 * i)

/-- The slots in which some byte is not 0xFF, ascending. -/
def State.defectUsed (s : State) : List Nat :=
  ((s.flash.filter fun c => defectBase ≤ c.1 && c.1 < defectBase + 0x10000).map fun c => (c.1 - defectBase) / 16).dedup

/-- A valid entry. -/
def State.defectAt (s : State) (i : Nat) : Option Defect :=
  let rd := s.defectSlot i
  if field rd 14 2 = crc16 (chunk rd 0 14) then
    some { typ := field rd 0 1, source := bits (field rd 1 1) 0 4, state := field rd 2 1, temp := sgn 8 (field rd 3 1),
           loc := field rd 4 8 }
  else none

/-- The valid entries in slot order. -/
def State.defects (s : State) : List Defect := s.defectUsed.filterMap s.defectAt

/-- Torn slots. -/
def State.tornSlots (s : State) : Nat := (s.defectUsed.filter fun i => (s.defectAt i).isNone).length

/-- The entry that holds of a location: the last one in slot order. -/
def State.defectOf (s : State) (typ loc : Nat) : Option Defect :=
  s.defects.reverse.find? fun d => d.typ == typ && d.loc == loc

def Defect.bytes (d : Defect) : List Byte :=
  let l := leBytes 1 d.typ ++ leBytes 1 d.source ++ leBytes 1 d.state ++ leBytes 1 (twos 8 d.temp) ++ leBytes 8 d.loc ++ leBytes 2 0
  l ++ leBytes 2 (crc16 l)

/-- The first empty slot. -/
def State.defectFree (s : State) : Option Nat :=
  let used := s.defectUsed
  (List.range 4096).find? fun i => !used.contains i

/-- An entry appended, or R89 where the record is full: isolated for this boot only, EV_DEFECT_RECORD_FULL. -/
def State.appendDefect (s : State) (d : Defect) : State :=
  match s.defectFree with
  | some i => s.program (defectBase + 16 * i) d.bytes
  | none =>
    ({ s with boot := { s.boot with recordFull := true, newDefects := s.boot.newDefects ++ [(d.typ, d.loc)] } }).emit [0] EV.defectRecordFull 1

/-- A lasting defect recorded: a new entry, or the existing one left in place (R85). -/
def State.recordDefect (s : State) (d : Defect) : State :=
  if (s.defectOf d.typ d.loc).isSome || s.boot.newDefects.contains (d.typ, d.loc) then s else s.appendDefect d

/-- Locations of a type that are defective: recorded, or known for this boot. -/
def State.badLocs (s : State) (typ : Nat) : List Nat :=
  (((s.defects.filter (·.typ == typ)).map (·.loc)) ++ ((s.boot.newDefects.filter (·.1 == typ)).map (·.2))).dedup

/-! ### Boot selectors (Table 22-4) and image headers (Table 22-1) -/

structure Selector where
  seq : Nat
  slot : Nat
  confirmed : Bool
  trial : Nat
  arb : Nat
  version : Nat
deriving DecidableEq, Repr

/-- A valid selector copy. -/
def State.selectorCopy (s : State) (k : Nat) : Option Selector :=
  let rd := s.flashByte (k * 0x1000)
  if field rd 0 4 = 0x4C535A4B && field rd 28 4 = crc32c (chunk rd 0 28) then
    some { seq := field rd 4 4, slot := bits (field rd 8 1) 0 1, confirmed := bit (field rd 8 1) 1,
           trial := bits (field rd 8 1) 2 3, arb := field rd 10 2, version := field rd 12 4 }
  else none

/-- The current copy and its number (R432). -/
def State.selectorNow (s : State) : Option (Nat × Selector) :=
  match s.selectorCopy 0, s.selectorCopy 1 with
  | none, none => none
  | some a, none => some (0, a)
  | none, some b => some (1, b)
  | some a, some b => if a.seq < b.seq then some (1, b) else some (0, a)

/-- The selector in force; without a valid one slot A, confirmed (R434). -/
def State.selector (s : State) : Selector :=
  match s.selectorNow with
  | some (_, x) => x
  | none => { seq := 0, slot := 0, confirmed := true, trial := 0, arb := 0, version := 0 }

/-- A selector write: the other copy erased and programmed with SEQ one higher. -/
def State.writeSelector (s : State) (x : Selector) : State :=
  let (k, q) := match s.selectorNow with
    | none => (0, 1)
    | some (k, y) => (1 - k, y.seq + 1)
  let l := leBytes 4 0x4C535A4B ++ leBytes 4 q ++
    leBytes 1 (x.slot + 2 * b2n x.confirmed + 4 * x.trial) ++ leBytes 1 0 ++ leBytes 2 x.arb ++ leBytes 4 x.version ++ leBytes 12 0
  (s.eraseFlash (k * 0x1000) 0x1000).program (k * 0x1000) (l ++ leBytes 4 (crc32c l))

/-- Flash offset of a firmware slot. -/
def slotBase (k : Nat) : Nat := if k = 0 then 0x100000 else 0x2000000

/-- An image's header and body in a slot. -/
def State.image (s : State) (k : Nat) : Reader := s.flashByte (slotBase k)

/-- The anti-rollback counter (R426). -/
def State.arbCounter (s : State) : Nat :=
  (s.fw.otp.filterMap fun e =>
    let v := bits e.toNat 0 16
    if bits e.toNat 16 16 = 65535 - v then some v else none).foldl max 0

/-- Entries that are valid or partial. -/
def State.arbUsed (s : State) : Nat := (s.fw.otp.filter (· != 0)).length

/-- An advance: a partial entry is completed where its bits allow, else the next unused one is programmed (R426,
R438). -/
def State.arbAdvance (s : State) (target : Nat) : State :=
  let v := BitVec.ofNat 32 (target % 65536 + (65535 - target % 65536) * 65536)
  let partial' (e : BitVec 32) : Bool := e != 0 && bits e.toNat 16 16 != 65535 - bits e.toNat 0 16
  match s.fw.otp.findIdx? (fun e => partial' e && e &&& v == e) with
  | some i => { s with fw := { s.fw with otp := updAt s.fw.otp i (fun _ => v) } }
  | none => match s.fw.otp.findIdx? (· == 0) with
    | some i => { s with fw := { s.fw with otp := updAt s.fw.otp i (fun _ => v) } }
    | none => s

/-- Whether the words of a header that Table 22-1 does not name are zero, below byte 3,072. -/
def headerReserved (rd : Reader) : Bool :=
  bits (field rd 6 1) 1 7 == 0 && zeros rd 7 1 && zeros rd 14 2 && zeros rd 36 28 && zeros rd 208 48 && zeros rd 448 2624

/-- The verification of an image (Table 22-3): 0, or the cause of the first check that fails. -/
def State.imageCause (s : State) (k : Nat) : Nat :=
  let rd := s.image k
  let total := field rd 16 4
  let inBody (o n : Nat) : Bool := 4096 ≤ o && o + n ≤ total
  let dig (o n : Nat) : List Byte := leBytes 48 (Config.sha384 (chunk rd o n)).toNat
  let owned := bit (field rd 6 1) 0
  let owner := Config.ecdsaVerify s.sec.ownerPub (chunk rd 0 256) (chunk rd 352 96)
  if !(field rd 0 4 == 0x57465A4B && field rd 4 2 == 1 && total == field rd 3072 4 && total % 4096 == 0 && 8192 ≤ total &&
      total ≤ 31 * 1048576 && inBody (field rd 20 4) (field rd 24 4) && inBody (field rd 28 4) (field rd 32 4) &&
      headerReserved rd) then 1
  else if !(chunk rd 64 48 == dig 4096 (total - 4096) && chunk rd 112 48 == dig (field rd 20 4) (field rd 24 4) &&
      chunk rd 160 48 == dig (field rd 28 4) (field rd 32 4)) then 2
  else if !Config.ecdsaVerify (Config.vendorKey 0) (chunk rd 0 256) (chunk rd 256 96) then 3
  else if (if s.sec.lifecycle = 2 then !(owned && owner)
      else if s.sec.lifecycle = 1 then owned && !s.sec.ownerPub.isEmpty && !owner else false) then 4
  else if field rd 12 2 < s.arbCounter then 5
  else if s.arbCounter < field rd 12 2 && s.fw.otp.all (· != 0) then 6
  else 0

/-- Bootable: passing Table 22-3 against the counter and lifecycle state in force (R434). -/
def State.bootable (s : State) (k : Nat) : Bool := s.imageCause k == 0

end Sys2Proof.Machine
end

