-- ==== Sys2Proof/Machine/Rails.lean ====
section
/-! DEFINITION. The rail rows (chapter 03): power-up and power-down steps, judged faults, PMBus, and RAIL_STATUS, RAIL_THRESH_SET and THERMAL_QUERY. -/
namespace Sys2Proof.Machine
open Sys2Proof

/-! ### The profile at power-up (R104, R106) -/

/-- The rail entries of the profile in force put into effect, with EV_RAIL_CFG_CLAMPED for each changed channel
(R42, R44). PAYLOAD byte 0 is the channel (log entry 32). -/
def State.applyRails (s : State) : State :=
  (List.range 16).foldl (fun s ch =>
    let (c, changed) := s.applyRail ch (s.prof.rails.getD ch {})
    let s := s.updRail ch fun r => { r with cfg := c, target := c.setpoint }
    if changed then ({ s with boot := { s.boot with clamped := true } }.emit [0] EV.railCfgClamped 2 0 (pay [(0, ch)])).alertBit 7 else s) s

/-- PROFILE_SEL sampled, the profile selected and checked, the built-in default in its place when it is not valid. -/
def State.selectProfile (s : State) (pins : Nat) : State :=
  let ov := s.overrideIndex
  let idx := ov.getD pins
  let ok := s.storedCheck idx == 0
  let s := { s with
    boot := { s.boot with pin := pins, active := idx, defaultUsed := !ok,
                          badProfile := if ok then none else some idx },
    prof := if ok then profileOf (s.flashByte (profileBase idx)) else Profile.default }
  if ok then s else s.emit [0] EV.profileInvalid 2 0 (pay [(0, idx)])

/-- BOOT of R448: one more than the highest in the crash log, 0 in an empty log. -/
def State.bootNumber (s : State) : Nat :=
  let used := ((s.flash.filter fun c => crashBase ≤ c.1 && c.1 < crashBase + 0x40000).map fun c => (c.1 - crashBase) / 32).dedup
  let boots := used.filterMap fun i =>
    let rd := s.flashByte (crashBase + 32 * i)
    if field rd 28 4 = crc32c (chunk rd 0 28) then some (field rd 24 4) else none
  match boots.max? with
  | some b => b + 1
  | none => 0

/-! ### Power-up (R46, R47) -/

/-- The channels that follow VDD_IO18: positions 2 to 14, then enabled spares (R38). -/
def State.upList (s : State) : List Nat := (List.range 15).filterMap fun i => if (s.rail (i + 1)).cfg.used then some (i + 1) else none

/-- Power is good: POR_N rises and a boot goes on to image verification (Table 3-4). -/
def State.powerUpEnd (s : State) : State :=
  { s with
    sup := { s.sup with seq := .steady, powerGood := true },
    boot := { s.boot with stage := if s.boot.stage == .rails then .secureBoot else s.boot.stage } }

/-- The last sample of a rail that is in its window: a free value inside it (log entry 35). -/
def State.sampled (s : State) (ch : Nat) : State :=
  if (s.rail ch).cfg.window then
    let (v, s) := s.free
    s.updRail ch fun r => { r with reading := (r.target - r.cfg.uv) * 2 + v % ((r.cfg.uv + r.cfg.ov) * 2 + 1) }
  else s

/-- One PMBus access to a rail's regulator: the PAGE write, then the command (R51). -/
def State.pmbCmd (s : State) (ch code data : Nat) : List (Nat × Nat × Nat) := [(ch, 0x00, (s.rail ch).cfg.pmbPage), (ch, code, data)]

/-- What the device writes into a rail's regulator (Table 3-7). -/
def RailCfg.regulator (c : RailCfg) (mode : Nat) : Regulator :=
  { page := c.pmbPage, enableOnly := true, mode := mode, command := c.setpoint * 2500,
    max := if c.avs then 850000 else c.setpoint * 2625, rate := if c.avs then 10 else 0,
    ovLimit := (c.setpoint + c.ov) * 2500 + 50000, uvLimit := (c.setpoint - c.uv) * 2500 - 50000, strapped := false }

/-- The transactions that configure a rail's regulator, in the order of Table 3-7. -/
def State.configTrans (s : State) (ch : Nat) (g : Regulator) : List (Nat × Nat × Nat) :=
  s.pmbCmd ch 0x02 1 ++ s.pmbCmd ch 0x20 g.mode ++ s.pmbCmd ch 0x21 g.command ++ s.pmbCmd ch 0x24 g.max ++
    (if (s.rail ch).cfg.avs then s.pmbCmd ch 0x27 g.rate else []) ++ s.pmbCmd ch 0x40 g.ovLimit ++ s.pmbCmd ch 0x44 g.uvLimit

/-- Telemetry of a rail is stale, with EV_PMBUS_FAULT (R53). -/
def State.pmbStale (s : State) (ch : Nat) : State :=
  ((s.updRail ch fun r => { r with tried := false, stale := true }).emit [0] EV.pmbusFault 0 0 (pay [(0, ch)])).alertBit 2

/-- Every PMBus regulator configured once VDD_IO18 is good (Table 3-4). A configuration that failed does not stop the sequence: its
regulator runs on its strapped defaults (R53). -/
def State.configureRegs (s : State) (regs : List RegConf) : State :=
  let s := { s with sup := { s.sup with pmbus := [] } }
  (List.range 16).foldl (fun s ch =>
    if !(s.rail ch).cfg.used || (s.rail ch).cfg.pmbAddr = 0 then s
    else
      let a := (regs.find? (·.channel == ch)).getD { channel := ch }
      let g := (s.rail ch).cfg.regulator a.mode
      let s := { s with sup := { s.sup with pmbus := s.sup.pmbus ++ s.configTrans ch g } }
      if a.acked then s.updRail ch fun r => { r with reg := g }
      else (s.updRail ch fun r => { r with reg := { g with strapped := true } }).pmbStale ch) s

/-- RAIL_JUDGED_GOOD: a rail that ramps has been in its window, or power-good, for 100 µs, and the next enable
rises. VDD_IO18 opens the flash: the profile is selected, its rail entries are read, and the regulators are configured (R47, R51,
R106). -/
def execRailJudgedGood (ch : Nat) (pins : BitVec 2) (regs : List RegConf) (s : State) : Host.Outcome State Fault Refusal :=
  run State.aon s fun s =>
    match s.sup.seq with
    | .up (c :: rest) =>
      if c = ch && (s.rail ch).enabled && (s.rail ch).state == .ramping && (s.rail ch).enabledAt + 100000 ≤ s.now then
        let s := (s.updRail ch fun r => { r with state := .good, judgedFrom := s.now }).sampled ch
        let s := if ch = 0 && s.boot.stage == .rails && !s.sup.powerGood then
            let s := (s.selectProfile pins.toNat).applyRails.configureRegs regs
            { s with logs := { s.logs with boot := s.bootNumber }, sup := { s.sup with seq := .up s.upList } }
          else { s with sup := { s.sup with seq := .up rest } }
        match s.sup.seq with
        | .up (d :: _) => s.railOn d
        | _ => s.powerUpEnd
      else s
    | _ => s

/-- RAIL_ON_TIMEOUT: a rail is not judged good within ON_TIMEOUT of its enable: SEQ_ON_TIMEOUT, FAULT_N, and the
power-down of every enabled rail, ending in FAULT_OFF with cause ON_TIMEOUT (R46, R47). -/
def execRailOnTimeout (ch : Nat) (s : State) : Host.Outcome State Fault Refusal :=
  run State.aon s fun s =>
    match s.sup.seq with
    | .up (c :: _) =>
      let r := s.rail ch
      if c = ch && r.enabled && r.state == .ramping && r.enabledAt + r.cfg.onTimeout * 1000000 ≤ s.now then
        (s.logOnly EV.seqOnTimeout 1 (pay [(0, ch)])).faultDown
          { channel := ch, cause := 5, level := 3, reading := r.reading, stamp := s.now }
      else s
    | _ => s

/-! ### Power-down (R48, R49) -/

/-- The head of a lowering sequence, its enable already low. -/
def State.falling (s : State) (ch : Nat) : Bool :=
  match s.sup.seq with
  | .down (c :: _) _ => c == ch && !(s.rail ch).enabled
  | _ => false

/-- Whether a rail has fallen as R48 decides it: a window-judged rail by a sample, in 1.25 mV units, below 25 % of SETPOINT and
0.2 V; one without a PMBus regulator when its OFF_WAIT has ended; one with a PMBus regulator by READ_VOUT only. -/
def State.hasFallen (s : State) (ch reading : Nat) : Bool :=
  let r := s.rail ch
  if r.cfg.window then reading * 2 < min r.cfg.setpoint 320
  else r.cfg.pmbAddr == 0 && r.enabledAt + r.cfg.offWait * 1000000 ≤ s.now

/-- RAIL_FALLEN: a rail is below its off threshold, or its OFF_WAIT has ended, and the next enable falls. -/
def execRailFallen (ch reading : Nat) (s : State) : Host.Outcome State Fault Refusal :=
  run State.aon s fun s => if s.falling ch && s.hasFallen ch reading then s.seqNext else s

/-- RAIL_OFF_TIMEOUT: a rail has not fallen within 50 ms: every remaining enable falls at once, SEQ_OFF_TIMEOUT,
FAULT_N. In an entry to STBY the remaining enables are those of the sequence: the rails that STBY keeps are not of it and stay on
(DEDUCED, log entry 132). A rail-fault record still due is written first (R49). -/
def execRailOffTimeout (ch : Nat) (s : State) : Host.Outcome State Fault Refusal :=
  run State.aon s fun s =>
    match s.sup.seq with
    | .down l goal =>
      if s.falling ch && (s.rail ch).enabledAt + 50000000 ≤ s.now then
        let s := (s.logOnly EV.seqOffTimeout 1 (pay [(0, ch)])).fault
        let s := if s.sup.recordDue then s.writeRecord else s
        let s := l.foldl (fun s c => if (s.rail c).enabled then s.railOff c else s) s
        let s := { s with sup := { s.sup with seq := .down [] goal } }
        if goal == .faultOff then s.seqEnd goal else s
      else s
    | _ => s

/-- RAIL_FAULT_RECORD_WRITTEN: the record is in the crash log; RAIL_EN[0] falls where it is next (R49). -/
def execRailFaultRecordWritten (s : State) : Host.Outcome State Fault Refusal :=
  run State.aon s fun s =>
    match s.sup.seq with
    | .down (c :: _) _ =>
      if s.sup.recordDue then
        let s := s.writeRecord
        if c = 0 && (s.rail 0).enabled then s.railOff 0 else s
      else s
    | _ => s

/-! ### Judged faults (R39, R41, R56, R57) -/

/-- A rail that is judged: enabled, and judged good or already faulted (R41). -/
def State.judged (s : State) (ch : Nat) : Bool :=
  (s.rail ch).enabled && ((s.rail ch).state == .good || (s.rail ch).state == .fault)

/-- The filter time in ns (R40). -/
def RailCfg.filterNs (c : RailCfg) : Nat := (c.filter + 1) * 100

/-- The window's edges in 1.25 mV units (R39): while an AVS move has not settled, from the lower edge of the old and the new
window to the upper edge of both (R55). -/
def Rail.low (r : Rail) : Nat := 2 * (min r.target (r.moving.getD r.target) - r.cfg.uv)
def Rail.high (r : Rail) : Nat := 2 * (max r.target (r.moving.getD r.target) + r.cfg.ov)

/-- What a sample says: `some true` above the window, `some false` below it. -/
def outside (low high reading : Nat) : Option Bool :=
  if reading < low then some false else if high < reading then some true else none

/-- How much of an excursion or a low that has lasted `ns` until now is judged: what lies after the stamp at which judging began
(R41), or began afresh with RAIL_THRESH_SET (R45). -/
def State.judgedNs (s : State) (ch ns : Nat) : Nat := min ns (s.now - (s.rail ch).judgedFrom)

/-- The stamps of an excursion's first and last sample (Table 2-3). -/
def Rail.excursion (r : Rail) (now ns : Nat) : Rail := { r with excFirst := now - (ns - 10), excLast := now }

/-- RAIL_WINDOW_FAULT: `samples` out-of-window samples in a row, 10 ns apart, the last of which reads `reading` now, reach the
filter time (R39, R40). Channel 254 is VDD_AON with its fixed window of 0.76 to 0.84 V and filter of 1.0 µs (R36), whose fault
is level 3. -/
def execRailWindowFault (ch reading samples : Nat) (s : State) : Host.Outcome State Fault Refusal :=
  run State.aon s fun s =>
    if ch = 254 then
      match outside 608 672 reading with
      | some high => if 1000 ≤ samples * 10 then
          s.faultDown { channel := 254, cause := b2n high, level := 3, reading := reading, stamp := s.now } else s
      | none => s
    else if s.judged ch && (s.rail ch).cfg.window then
      match outside (s.rail ch).low (s.rail ch).high reading with
      | some high =>
        let ns := s.judgedNs ch (samples * 10)
        if (s.rail ch).cfg.filterNs ≤ ns then (s.updRail ch fun r => r.excursion s.now ns).railFaulted ch (b2n high) reading else s
      | none => s
    else s

/-- RAIL_GLITCH: an excursion that ended shorter than the filter, counted. -/
def execRailGlitch (ch reading samples : Nat) (s : State) : Host.Outcome State Fault Refusal :=
  run State.aon s fun s =>
    let ns := s.judgedNs ch (samples * 10)
    if s.judged ch && (s.rail ch).cfg.window && (outside (s.rail ch).low (s.rail ch).high reading).isSome &&
        10 ≤ ns && ns < (s.rail ch).cfg.filterNs then
      s.updRail ch fun r => { r.excursion s.now ns with glitches := sat 16 (r.glitches + 1), reading := reading }
    else s

/-- RAIL_PG_FAULT: RAIL_PG has been low for `low` ns, the filter time or more, on an enabled, good power-good-only rail
(R41). -/
def execRailPgFault (ch low : Nat) (s : State) : Host.Outcome State Fault Refusal :=
  run State.aon s fun s =>
    if s.judged ch && !(s.rail ch).cfg.window && (s.rail ch).cfg.filterNs ≤ s.judgedNs ch low then s.railFaulted ch 0 0 else s

/-- RECURRENCE_WINDOW_END: 100 ms without a recurrence release the throttle and make the fault transient. -/
def execRecurrenceWindowEnd (ch : Nat) (s : State) : Host.Outcome State Fault Refusal :=
  run State.aon s fun s =>
    match (s.rail ch).windowFrom with
    | some w =>
      if w + 100000000 ≤ s.now && (s.rail ch).runFaults ≤ 1 && (s.rail ch).level ≤ 1 then
        let s := s.updRail ch fun r => { r with
          windowFrom := none, throttle := false, runFaults := 0, level := 0,
          state := if r.enabled && r.state == .fault then .good else r.state }
        let old := (s.logs.transient.find? (fun x => x.1 == 0 && x.2.1 == ch)).elim 0 (·.2.2)
        { s with logs := { s.logs with
            transient := (0, ch, old + 1) :: s.logs.transient.filter (fun x => !(x.1 == 0 && x.2.1 == ch)) } }
      else s
    | none => s

/-- LEVEL2_EXPIRY: 10 ms after level 2 the fault power-down begins, whether or not the CP has finished (R57). -/
def execLevel2Expiry (s : State) : Host.Outcome State Fault Refusal :=
  run State.aon s fun s =>
    match s.sup.level2At with
    | some t =>
      if t + 10000000 ≤ s.now then
        s.faultDown (s.sup.record.getD { channel := 255, cause := 0, level := 3, stamp := t })
      else s
    | none => s

/-! ### PMBus (R51 to R53, R466) -/

/-- A PMBus transaction with a rail's regulator failed: the first failure is retried, the second marks its telemetry
stale with EV_PMBUS_FAULT. -/
def State.pmbFail (s : State) (ch : Nat) : State :=
  if (s.rail ch).tried then s.pmbStale ch else s.updRail ch fun r => { r with tried := true }

/-- The accesses of a status read: STATUS_WORD, the detailed status that it flags, and CLEAR_FAULTS where it showed faults
(Table 3-7). -/
def State.statusTrans (s : State) (w : RegStatus) : List (Nat × Nat × Nat) :=
  let ch := w.channel
  s.pmbCmd ch 0x79 0 ++
    (if !w.acked then [] else
      (if w.high || w.low then s.pmbCmd ch 0x7A 0 else []) ++ (if w.current then s.pmbCmd ch 0x7B 0 else []) ++
      (if w.temp then s.pmbCmd ch 0x7D 0 else []) ++
      (if w.high || w.low || w.current || w.temp then s.pmbCmd ch 0x03 0 else []))

/-- The transactions of a row on the bus. -/
def State.onBus (s : State) (l : List (Nat × Nat × Nat)) : State := { s with sup := { s.sup with pmbus := l } }

/-- A STATUS_WORD read from a regulator: a fault bit is a fault on its rail, a warning raises EV_RAIL_WARN (R52). -/
def State.statusWord (s : State) (w : RegStatus) : State :=
  if (s.rail w.channel).cfg.pmbAddr = 0 || 16 ≤ w.channel then s
  else if !w.acked then s.pmbFail w.channel
  else
    let s := s.updRail w.channel fun r => { r with tried := false }
    let s := if w.warn then (s.emit [0] EV.railWarn 0 0 (pay [(0, w.channel)])).alertBit 1 else s
    if (w.high || w.low || w.current || w.temp) && s.judged w.channel then
      s.railFaulted w.channel 2 (s.rail w.channel).reading
    else s

/-- The PMBus runs: VDD_IO18, which supplies it, is good. -/
def State.pmb (s : State) : Bool := s.judged 0

/-- PMB_ALERT: every regulator's STATUS_WORD is read. -/
def execPmbAlert (words : List RegStatus) (s : State) : Host.Outcome State Fault Refusal :=
  run State.pmb s fun s =>
    let l := words.filter fun w => w.channel < 16 && (s.rail w.channel).cfg.pmbAddr != 0
    l.foldl State.statusWord (s.onBus (l.flatMap s.statusTrans))

/-- The accesses of a telemetry poll: STATUS_WORD, then READ_VIN, VOUT, IOUT, TEMPERATURE_1 and POUT (Table 3-7). -/
def State.pollTrans (s : State) (word : RegStatus) (values : List Nat) : List (Nat × Nat × Nat) :=
  s.statusTrans word ++ (if word.acked then
    ([0x88, 0x8B, 0x8C, 0x8D, 0x96].zip (values.take 5)).flatMap fun x => s.pmbCmd word.channel x.1 x.2 else [])

/-- PMBUS_TELEMETRY_POLL of one regulator, every 10 ms; a retry follows at once (R51, R53). -/
def execPmbusTelemetryPoll (word : RegStatus) (values : List Nat) (s : State) : Host.Outcome State Fault Refusal :=
  run State.pmb s fun s =>
    let r := s.rail word.channel
    if 16 ≤ word.channel || r.cfg.pmbAddr = 0 || !(r.tried || r.polledAt.all fun t => t + 10000000 ≤ s.now) then s
    else
      let s := s.onBus (s.pollTrans word values)
      let s := (s.updRail word.channel fun r => { r with polledAt := some s.now }).statusWord word
      if word.acked then s.updRail word.channel fun r => { r with stale := false, telemetry := values.take 5 } else s

/-- PMBUS_VOUT_POLL: READ_VOUT of a power-good-only rail under way down, every 1 ms; below 25 % of SETPOINT or 0.2 V,
whichever is lower, it has fallen (R48). A read that fails is retried, and twice failed it says nothing (R53). -/
def execPmbusVoutPoll (ch mv : Nat) (acked : Bool) (s : State) : Host.Outcome State Fault Refusal :=
  run State.aon s fun s =>
    let r := s.rail ch
    if !s.falling ch || r.cfg.window || r.cfg.pmbAddr = 0 || !(r.tried || r.voutAt.all fun t => t + 1000000 ≤ s.now) then s
    else
      let s := (s.onBus (s.pmbCmd ch 0x8B mv)).updRail ch fun r => { r with voutAt := some s.now }
      if !acked then s.pmbFail ch
      else
        let s := s.updRail ch fun r => { r with tried := false }
        if mv * 8 < min (r.cfg.setpoint * 5) 1600 then s.seqNext else s

/-- PMBUS_SCL_TIMEOUT: a transaction abandoned after 25 ms counts as failed (R466). -/
def execPmbusSclTimeout (ch : Nat) (s : State) : Host.Outcome State Fault Refusal :=
  run State.pmb s fun s => if (s.rail ch).cfg.pmbAddr = 0 then s else s.pmbFail ch

/-! ### VDD_AON (R36, R76) -/

/-- Lifecycle groups completed by Solram at COLD (R411): every entered group has all its bits. -/
def Sec.groupsDone (x : Sec) : List (BitVec 16) := x.groups.map fun g => if g = 0 then 0 else BitVec.allOnes 16

/-- The state of R411: the highest whose group has a bit programmed, 0 where none has. -/
def Sec.highest (x : Sec) : Nat := ((List.range 4).filter fun i => (x.groups.getD i 0) != 0).foldl (fun a i => max a (i + 1)) 0

/-- A COLD reset: the reset state, with what Table 4-7 keeps: flash, OTP and lifecycle, identity; host memory is
not the device's. -/
def State.cold (s : State) : State :=
  { State.reset with
    flash := s.flash, host := s.host, readData := s.readData, fresh := s.fresh, pending := s.pending,
    mem := { State.reset.mem with cells := [], ops := [.zero 0 (2 ^ 41)] },
    logs := { State.reset.logs with crashNext := s.logs.crashNext },
    boot := { State.reset.boot with caps := s.boot.caps },
    power := { State.reset.power with perstLow := s.power.perstLow.map fun _ => 0 },
    sec := { State.reset.sec with
      groups := s.sec.groupsDone, lifecycle := s.sec.highest, rootSecret := s.sec.rootSecret && s.sec.highest != 4,
      rmaErased := s.sec.rmaErased, serial := s.sec.serial,
      ownerPub := s.sec.ownerPub, ownerDebug := s.sec.ownerDebug, drbgCount := s.sec.drbgCount },
    fw := { State.reset.fw with otp := s.fw.otp } }

/-- VDD_AON_POWER_LOSS: below 0.65 V every RAIL_EN falls; the device is in COLD reset until VDD_AON returns. -/
def execVddAonPowerLoss (s : State) : Host.Outcome State Fault Refusal :=
  run State.aon s fun s =>
    let t := s.cold
    { t with
      rails := t.rails.map fun r => { r with enabled := false, state := .off },
      sup := { t.sup with seq := .steady, aonUp := false }, boot := { t.boot with caps := 0 }, power := { t.power with chip := .off } }

/-- VDD_AON_POWER_ON: VDD_AON, which was off, has risen through 0.65 V and REFCLK_SYS has qualified: COLD (R76, R467). -/
def execVddAonPowerOn (s : State) : Host.Outcome State Fault Refusal :=
  run State.always s fun s => if s.aon then s else s.cold

/-! ### Commands (R45, Table 8-17) -/

/-- State codes of PWR_RAIL_STATE (Table 24-8). -/
def RailState.code : RailState → Nat
  | .off => 0
  | .ramping => 1
  | .good => 2
  | .fault => 3

/-- RAIL_STATUS RESULT. -/
def Rail.status (r : Rail) : Nat :=
  r.state.code + 8 * b2n r.cfg.window + (if r.cfg.window then r.reading % 65536 else 0) * 2 ^ 16 + r.faults * 2 ^ 32 +
    r.glitches * 2 ^ 48

def effRailStatus (s : State) (r : Req) (t : Taken) : State := s.complete r ST.ok (s.rail (eParam t.entry 0 0 4)).status

/-- RAIL_STATUS. -/
def execRailStatus (m : Nat) (c : Cmd) (s : State) : Host.Outcome State Fault Refusal :=
  run State.core s fun s => lolin 0x0F01 m c s noCheck effRailStatus

def chkRailThreshSet (s : State) (e : Block) (_ : Taken) : Option (Nat × Nat) :=
  if s.sec.lifecycle = 2 && ((senseRail (eParam e 0 0 4) && eParam e 1 0 1 == 0) || 20 < eParam e 2 0 8 || 20 < eParam e 3 0 8 ||
      19 < eParam e 4 0 8) then some (ST.secDenied, 0) else none

def effRailThreshSet (s : State) (r : Req) (t : Taken) : State :=
  let e := t.entry
  let ch := eParam e 0 0 4
  (s.updRail ch fun x => { x with judgedFrom := s.now, cfg := { x.cfg with
    window := eParam e 1 0 1 == 1 && senseRail ch, uv := eParam e 2 0 8, ov := eParam e 3 0 8, filter := eParam e 4 0 8 } }).complete r ST.ok

/-- RAIL_THRESH_SET: the four values take effect together, and an excursion in progress is judged afresh from then; a rail without a sense converter stays power-good only
(log entry 36). -/
def execRailThreshSet (m : Nat) (c : Cmd) (s : State) : Host.Outcome State Fault Refusal :=
  run State.core s fun s => lolin 0x0F02 m c s chkRailThreshSet effRailThreshSet

/-- Basin thermal state of THERMAL_QUERY. -/
def Basin.thermal (b : Basin) : Nat := if b.psr || b.psrDue then 3 else if b.throttled then 2 else if b.doubled then 1 else 0

def effThermalQuery (s : State) (r : Req) (t : Taken) : State :=
  let i := eParam t.entry 1 0 4
  let v := if eParam t.entry 0 0 1 = 0 then
      twos 16 (s.plain i).hottest + (s.plain i).duty * 2 ^ 16 + (s.plain i).limit * 2 ^ 20
    else twos 16 ((s.basin i).temp * 4) + (s.basin i).thermal * 2 ^ 16
  s.complete r ST.ok v

/-- THERMAL_QUERY. -/
def execThermalQuery (m : Nat) (c : Cmd) (s : State) : Host.Outcome State Fault Refusal :=
  run State.core s fun s => lolin 0x0F03 m c s noCheck effThermalQuery

end Sys2Proof.Machine
end

