-- ==== Sys2Proof/Machine/Power.lean ====
section
/-! DEFINITION. Plain power and thermal control (R60 to R69), chip power states and wake sources (R70 to R75). -/
namespace Sys2Proof.Machine
open Sys2Proof

/-! ### Plain states (R60 to R62) -/

/-- Whether a partition owns a half of a Plain. -/
def State.plainOwned (s : State) (p : Nat) : Bool := (halfOwner s (2 * p)).isSome || (halfOwner s (2 * p + 1)).isSome

/-- Whether a descriptor is dispatched on a Plain. -/
def State.plainBusy (s : State) (p : Nat) : Bool := s.sched.runs.any fun r => r.hps.any fun h => h / 2 == p

/-- PLAIN_IDLE: no descriptor dispatched and no activity for 256 cycles. -/
def execPlainIdle (p : Nat) (s : State) : Host.Outcome State Fault Refusal :=
  run State.core s fun s =>
    if (s.plain p).state == .run && !s.plainBusy p then s.updPlain p fun x => { x with state := .idle, since := s.now } else s

/-- PLAIN_RET_ENTRY: IDLE for RET_DELAY, where the profile permits RET. -/
def execPlainRetEntry (p : Nat) (s : State) : Host.Outcome State Fault Refusal :=
  run State.core s fun s =>
    let x := s.plain p
    if x.state == .idle && s.prof.retEn && x.since + s.prof.retDelay * 10000 ≤ s.now && !s.plainBusy p then
      s.updPlain p fun x => { x with state := .ret, since := s.now, exiting := false }
    else s

/-- PLAIN_OFF: the CP powers off a Plain neither half of which is owned. Its store, line buffers and registers are
lost and its target is nominal again (R62, Table 4-7). -/
def execPlainOff (p : Nat) (s : State) : Host.Outcome State Fault Refusal :=
  run State.core s fun s =>
    if s.cpUp && p < 16 && (s.plain p).state != .off && !s.plainOwned p then
      let s := s.zeroHalves [2 * p, 2 * p + 1]
      s.updPlain p fun x => { x with
        state := .off, since := s.now, exiting := false, waiting := none, target := min 76 (s.prof.freqCap.getD p 0) }
    else s

/-! ### Thermal control (R66 to R69) -/

/-- Rings of EV_PLAIN_THROTTLE: admin and the owners of the Plain's halves. -/
def State.plainRings (s : State) (p : Nat) : List Nat :=
  0 :: ((([2 * p, 2 * p + 1].filterMap (halfOwner s)).map (· + 1)).dedup)

/-- EV_PLAIN_THROTTLE or its CLEAR, with the Plain in byte 0 and its duty limit in byte 1 (log entry 32). -/
def State.throttleEvent (s : State) (p code : Nat) : State :=
  s.emit (s.plainRings p) code 2 0 (pay [(0, p), (1, (s.plain p).duty)])

/-- The reading below which a duty limit is released, in quarter degrees. -/
def releaseBelow (duty : Nat) : Int := if duty = 1 then 428 else 408

/-- A sample of a Plain's hottest sensor (Table 4-3). -/
def State.thermal (s : State) (p : Nat) (t : Int) : State :=
  let old := (s.plain p).duty
  let duty := if 440 ≤ t then 1 else if 420 ≤ t then min old 4 else old
  let s := s.updPlain p fun x => { x with
    hottest := t, duty := duty, limit := if 420 ≤ t then 0 else x.limit,
    below := if duty < 8 && t < releaseBelow duty then (if duty = old then some (x.below.getD s.now) else some s.now) else none }
  if duty < old then ((s.markThrottled [p]).throttleEvent p EV.plainThrottle).alertBit 3 else s

/-- A trip at 115 °C: dispatch stops, THERMTRIP_N falls and the fault power-down begins, its record naming THERMTRIP and the Plain
(R68). -/
def State.trip (s : State) (p : Nat) (t : Int) : State :=
  let s := s.updPlain p fun x => { x with hottest := t, tripped := true }
  let s := { s with sup := { s.sup with thermtrip := true } }
  s.faultDown { channel := 255, cause := 4, level := 3, plain := p, stamp := s.now }

/-- The sensors of a Plain have power: its quadrant's core rail is on and was judged good, in every Plain state and during every
sequence (R66). -/
def State.sensed (s : State) (p : Nat) : Bool := s.aon && p < 16 && s.judged (3 + quadOf p)

/-- PLAIN_THERMAL_SAMPLE, every 10 µs: four sensors, in quarter degrees; the hottest governs. -/
def execPlainThermalSample (p : Nat) (quarters : List Int) (s : State) : Host.Outcome State Fault Refusal :=
  run (State.sensed · p) s fun s =>
    match quarters.max? with
    | some t =>
      if (s.plain p).sampledAt.all fun u => u + 10000 ≤ s.now then
        let s := (s.updPlain p fun x => { x with sampledAt := some s.now }).thermal p t
        if 460 ≤ t then s.trip p t else s
      else s
    | none => s

/-- PLAIN_FREQ_LIMIT_STEP: at 100 °C the limit falls by 50 MHz every 100 µs; below 97 °C it rises by 50 MHz every
1 ms until it no longer binds. A limit that no longer binds, being at or above the target, reads 104, its value without a limit
(DEDUCED, log entry 38). -/
def execPlainFreqLimitStep (p : Nat) (s : State) : Host.Outcome State Fault Refusal :=
  run State.core s fun s =>
    let x := s.plain p
    if 400 ≤ x.hottest && x.limitAt + 100000 ≤ s.now then
      (s.updPlain p fun x => { x with limit := x.limit - 4, limitAt := s.now }).markThrottled [p]
    else if x.hottest < 388 && x.limit < 104 && x.limitAt + 1000000 ≤ s.now then
      s.updPlain p fun x => { x with
        limit := if x.target ≤ x.limit + 4 then 104 else x.limit + 4, limitAt := s.now }
    else s

/-- PLAIN_THROTTLE_RELEASE: 1 ms below the release threshold of the duty limit in force. -/
def execPlainThrottleRelease (p : Nat) (s : State) : Host.Outcome State Fault Refusal :=
  run State.core s fun s =>
    let x := s.plain p
    if x.duty < 8 && x.below.any (fun t => t + 1000000 ≤ s.now) then
      if x.duty = 1 then
        s.updPlain p fun x => { x with duty := 4, below := if x.hottest < 408 then some s.now else none }
      else (s.updPlain p fun x => { x with duty := 8, below := none }).throttleEvent p EV.plainThrottleClear
    else s

/-- PLAIN_THERMAL_TRIP: a reading of 115 °C. -/
def execPlainThermalTrip (p : Nat) (quarters : Int) (s : State) : Host.Outcome State Fault Refusal :=
  run (State.sensed · p) s fun s => if 460 ≤ quarters then s.trip p quarters else s

/-! ### Entry into a chip state (R70 to R72, R74) -/

/-- Whether a decoder context holds undecoded input. -/
def Dec.undecoded (x : Dec) : Bool := !x.slots.isEmpty

/-- FW_DOWNLOAD work. -/
def Work.isDownload : Work → Bool
  | .download _ _ _ _ _ _ => true
  | _ => false

/-- The unmet conditions of R71, bit by bit. -/
def State.blocked (s : State) : Nat :=
  b2n (s.streams.any fun x => !x.items.isEmpty) +
  2 * b2n (!s.media.encs.isEmpty || s.media.decs.any Dec.undecoded) +
  4 * b2n (s.coll.groups.any fun g => !g.colls.isEmpty) +
  8 * b2n (s.fns.any fun f => f.windows.any fun w => w.mapped && !w.deviceSlots.isEmpty) +
  16 * b2n (s.parts.any (·.step != 0) || s.ports.any (fun p => p.training || p.queued.isSome) ||
    s.basins.any (fun b => b.retraining || b.queued.isSome || b.repairing.isSome) || s.boot.work.any Work.isDownload || s.fw.verify.isSome) +
  32 * b2n (s.rails.any (fun r => r.windowFrom.isSome) || s.sup.level2At.isSome)

def chkDevPowerState (s : State) (_ : Block) (_ : Taken) : Option (Nat × Nat) :=
  if s.blocked = 0 then none else some (ST.powerStateBlocked, s.blocked)

/-- The chip state a DEV_POWER_STATE names. -/
def goalOf (v : Nat) : Chip := if v = 1 then .qsc else if v = 2 then .stby else .off

/-- A partition destroyed at once, nothing of it running (R74): the effects of Table 11-1 and PART_DESTROY. -/
def State.destroyNow (s : State) (p : Nat) : State :=
  let ids := (s.streams.filter (·.owner == p)).map (·.index)
  let s := { s with sched := { s.sched with runs := s.sched.runs.filter fun r => r.part != p } }
  let s := ids.foldl (fun s i => (s.beginTeardown i 1 0xFFFF 0).tearDown i) s
  let s := s.releaseResvs fun r => r.part == p
  let s := ((s.dropObjs p).dropPools p).dropMedia p
  let s := (s.mb (p + 1)).taken.foldl (fun s t => s.complete ⟨p + 1, eId t.entry⟩ ST.abortedByReset) s
  let s := (s.dropWindows (p + 1)).zeroHalves (s.hpsOf p)
  let s := if (s.part p).cfg.confidential then s.rotateKeys p else s
  (s.clearMailbox p).partGone p

/-- Ports that are UP. -/
def State.portsUp (s : State) : List Nat := (List.range 24).filter fun p => (s.port p).state == .up

/-- The LEAVE notice of R373 and membership given up. -/
def State.leaveValley (s : State) : State :=
  if !s.valley.joined then s
  else
    let s := s.flood { typ := mLeave, src := s.chip, dst := 0 } none
    { s with valley := { s.valley with
        joined := false, root := false, members := [], outstanding := [], queued := [], heldReqs := [], dedup := [],
        lost := [], views := [], selfRsp := [] } }

/-- The LEAVE notice sent on every UP port before the links drop (R74, R226). -/
def State.leaveLinks (s : State) : List Nat := if s.valley.joined then s.portsUp else []

/-- The debug level set, with EV_DEBUG_LEVEL where it changes (R420). PAYLOAD byte 0 is the level (log entry 32). -/
def State.setLevel (s : State) (l : Nat) : State :=
  if s.sec.level = l then s
  else ({ s with sec := { s.sec with level := l } }).emit [0] EV.debugLevel 2 0 (pay [(0, l)])

/-- A Pass port whose training is lost: back to DETECT where the profile enables it (Table 4-7). -/
def State.portLost (s : State) (p : Nat) : State :=
  s.updPort p fun _ => { state := if bit s.prof.passEn p && s.sec.lifecycle != 3 then .detect else .disabled }

/-- Channels that stay on in STBY (Table 3-6). -/
def stbyKept : List Nat := [0, 7, 8, 9, 12, 13]
/-- The lowering list of STBY entry and the raising list of its exit: every other rail. -/
def State.stbyOff (s : State) : List Nat := s.enabledDown.filter fun c => !stbyKept.contains c
def State.stbyOn (s : State) : List Nat := s.upList.filter fun c => !stbyKept.contains c

/-- STBY_SAVE_DONE: confidential partitions without RETAIN_KEYS are gone, the Valley is left, the suspend contents are
saved under a fresh suspend key, Solram keeps the hash of the CP image (R72, log entry 135), DEV_POWER_STATE completes and the rails begin to fall. -/
def execStbySaveDone (s : State) : Host.Outcome State Fault Refusal :=
  run State.core s fun s =>
    match s.power.entry with
    | some (.stby, some r) =>
      let gone := (List.range 32).filter fun p =>
        (s.part p).exist && (s.part p).cfg.confidential && !(s.part p).cfg.retainKeys
      let s := gone.foldl State.destroyNow s
      let left := s.leaveLinks
      let s := (List.range 24).foldl State.portLost s.leaveValley
      let s := { s with valley := { s.valley with left := left } }
      let s := { s with
        sec := { s.sec with keys := insertNat 33 s.sec.keys, drbgCount := s.sec.drbgCount + 1, cpHash := s.sec.measuredFw },
        coll := { s.coll with groups := s.coll.groups.map fun (g : Group) => { g with staged := [] } },
        power := { s.power with saved := true, image := s.sec.measuredFw, entry := some (.stby, none) } }
      let s := (s.setLevel 0).complete r ST.ok
      s.seqDown s.stbyOff .stby
    | _ => s

/-- CHIP_STATE_REACHED: QSC with the AVS rails at 0.60 V, all Plains in RET and PCIe in L1 (Table 0-4), or the end of the
rails' fall. -/
def execChipStateReached (s : State) : Host.Outcome State Fault Refusal :=
  run State.aon s fun s =>
    match s.sup.seq with
    | .down [] goal => s.seqEnd goal
    | .steady =>
      match s.power.entry with
      | some (.qsc, some r) =>
        let s := { s with
          rails := s.rails.map fun (x : Rail) => (if x.cfg.avs && x.enabled then { x with resume := x.target, target := 240, moving := none } else x),
          plains := s.plains.map fun (x : Plain) =>
            (if x.state == PlainState.off || x.state == PlainState.ret then x else { x with state := .ret, since := s.now, exiting := false }),
          hif := { s.hif with pm := 1 }, power := { s.power with chip := .qsc, entry := none } }
        (s.complete r ST.ok).emit [0] EV.powerState 2 0 (pay [(0, 1)])
      | _ => s
    | _ => s

/-! ### Wake sources (R71, R73, R75) -/

/-- A wake source while the rails of an entry to STBY fall: what the fallen rails held comes back from the suspend area, so the
chip goes on as in the exit from STBY and is ACTIVE at its end (R71, R72; DEDUCED, log entry 140). -/
def State.riseFromStby (s : State) : State :=
  let up := s.stbyOn.filter fun c => !(s.rail c).enabled
  let s := { s with power := { s.power with chip := .stby, waking := true }, sup := { s.sup with seq := .up up } }
  match up with
  | c :: _ => s.railOn c
  | [] => { s with sup := { s.sup with seq := .steady } }

/-- A wake source: an entry in progress ends, its command with ST_POWER_STATE_BLOCKED and bit 6; QSC and STBY start
their exit. -/
def State.wake (s : State) : State :=
  match s.power.entry with
  | some (goal, r) =>
    let s := { s with power := { s.power with entry := none } }
    let s := match r with
      | some q => { s with power := { s.power with saved := false } }.complete q ST.powerStateBlocked 64
      | none => s
    match s.sup.seq with
    | .down _ _ =>
      if goal == .stby then s.riseFromStby
      else
        let up := (List.range 16).filter fun c => (s.rail c).cfg.used && !(s.rail c).enabled
        let s := { s with sup := { s.sup with seq := .up up } }
        match up with
        | c :: _ => s.railOn c
        | [] => { s with sup := { s.sup with seq := .steady } }
    | _ => s
  | none =>
    if s.power.chip == .qsc || s.power.chip == .stby then { s with power := { s.power with waking := true } } else s

/-- The keeper answers for BAR0: in STBY, and from the first rail that falls on the way there (R73). -/
def State.suspended (s : State) : Bool :=
  s.sup.powerGood && (s.power.chip == .stby || match s.sup.seq with
    | .down _ .stby => true
    | _ => false)

/-- A doorbell at a BAR0 offset of a function that the keeper latches; it is a wake source (R73). -/
def State.latchDoorbell (s : State) (m off v : Nat) : State :=
  if (s.fn m).enabled then (s.updFn m fun x => { x with latch := x.latch.filter (·.1 != off) ++ [(off, v)] }).wake else s

/-- QSC and STBY wait for their state or their save; OFF saves nothing, so it completes and the commanded power-down
begins. -/
def effDevPowerState (s : State) (r : Req) (t : Taken) : State :=
  let goal := goalOf (eParam t.entry 0 0 2)
  if goal == .qsc && s.power.chip == .qsc then s.complete r ST.ok
  else if goal == .off then
    let s := s.complete r ST.ok
    let s := { s with power := { s.power with entry := some (.off, none) } }
    s.linkLost.seqDown s.enabledDown .off
  else { s with power := { s.power with entry := some (goal, some r) } }.wait r

/-- DEV_POWER_STATE. It waits while the entry of another is under way, and one that names STBY or OFF in QSC first wakes the chip
to ACTIVE (R70, R71). A CP exception between its commit and its completion is not told apart: the entry goes on (log entry
141). -/
def execDevPowerState (m : Nat) (c : Cmd) (s : State) : Host.Outcome State Fault Refusal :=
  run State.core s fun s =>
    if s.powerHeld c.params.toNat then
      let s := s.present ⟨m, c.reqId⟩ (entryOf c 0x0105)
      if s.power.entry.isNone && (s.taken ⟨m, c.reqId⟩).isSome then s.wake else s
    else lolin 0x0105 m { c with cut := false } s chkDevPowerState effDevPowerState

/-- PWR_WAKE_WRITE: writing 1 to WAKE (R457). -/
def execPwrWakeWrite (v : BitVec 32) (s : State) : Host.Outcome State Fault Refusal :=
  run State.keeper s fun s => if bit v.toNat 0 then s.wake else s

/-- PCIE_PM_WAKE: the PF moves to D0, or the host exits L1.2. -/
def execPciePmWake (s : State) : Host.Outcome State Fault Refusal := run State.keeper s State.wake

/-- PLDM_SET_STATE_EFFECTER: a wake source, or a COLD from OFF; FAULT_OFF is left only by VDD_AON (R75). -/
def execPldmSetStateEffecter (s : State) : Host.Outcome State Fault Refusal :=
  run State.aon s fun s => if s.power.chip == .off && s.sup.seq == .steady then s.cold else s.wake

/-- PLDM_SENSOR_READ: the answer in `readData`: for sensor 0 the 32 bytes of the last rail-fault record (R58, Table 23-5); the
other sensors have no numbers in the spec, and theirs is a free value (log entry 37). -/
def execPldmSensorRead (sensor : Nat) (s : State) : Host.Outcome State Fault Refusal :=
  run State.aon s fun s =>
    let (v, s) := s.free
    { s with readData := if sensor = 0 then (s.sup.last.map fun r => leNat r.bytes).getD v else v }

/-- CHIP_WAKE: a wake source is acted on: in QSC the AVS rails move back to their ACTIVE targets, and ACTIVE is reached once all
have settled (R55); STBY begins to raise its rails in the order of R46. -/
def execChipWake (s : State) : Host.Outcome State Fault Refusal :=
  run State.keeper s fun s =>
    if !s.power.waking then s
    else if s.power.chip == .qsc then
      if s.power.rising then s
      else
        ({ s with
          rails := s.rails.map fun (x : Rail) => (if x.cfg.avs && x.enabled then
            { x with target := x.resume, moving := some x.target, movedAt := s.now, settleFault := false } else x),
          hif := { s.hif with pm := 0 }, power := { s.power with rising := true } }).qscEnds
    else if s.power.chip == .stby && s.sup.seq == .steady && !(s.rail 1).enabled then
      ({ s with sup := { s.sup with seq := .up s.stbyOn } }).railOn 1
    else s

end Sys2Proof.Machine
end

