-- ==== Sys2Proof/Machine/Defects.lean ====
section
/-! DEFINITION. What recorded defects do: core map (R88), usable half-plains and media cores (Table 5-5), retired frames (R91, R240), the capability word (R99). -/
namespace Sys2Proof.Machine
open Sys2Proof

/-! ### Spares (Table 5-5) -/

/-- The unit whose spares a location draws on, as the low bits of LOCATION that name it, and how many it has: of an array of
type 0x0C a free number (log entry 39). -/
def spareGroup (typ loc : Nat) : Nat × Nat :=
  match typ with
  | 0x01 => (bits loc 0 4, 1)
  | 0x02 => (bits loc 0 11, 8)
  | 0x03 => (bits loc 0 11, 2)
  | 0x04 => (bits loc 0 5, 4)
  | 0x05 => (bits loc 0 4, 16)
  | 0x07 => (bits loc 0 7, 2)
  | 0x0C => (loc, Config.sramRows loc)
  | _ => (loc, 0)

/-- Defective locations of a type in a group. -/
def State.groupBad (s : State) (typ g : Nat) : Nat := ((s.badLocs typ).filter fun l => (spareGroup typ l).1 == g).length

/-- Whether a spare is left for a new location. -/
def State.spareLeft (s : State) (typ loc : Nat) : Bool :=
  let (g, n) := spareGroup typ loc
  s.groupBad typ g < n

/-- Whether every group of a type in which `sel` holds keeps within its spares. -/
def State.within (s : State) (typ : Nat) (sel : Nat → Bool) : Bool :=
  (s.badLocs typ).all fun l => !sel l || s.groupBad typ (spareGroup typ l).1 ≤ (spareGroup typ l).2

/-- STATE of a new entry: 1 SPARED while a spare is left, else 0 ISOLATED. -/
def State.stateFor (s : State) (typ loc : Nat) : Nat := b2n (s.spareLeft typ loc)

/-! ### Maps -/

/-- Enabled numbers of a Plain, given in ascending order to the non-defective physical cores (R88). -/
def State.coresOf (s : State) (p : Nat) : List (Option Nat) :=
  let ok := (List.range 5).filter fun c => !(s.badLocs 0x01).contains (p + c * 16)
  (List.range 4).map fun i => ok[i]?

/-- Whether a half-plain has an enabled core and both engines. -/
def State.halfEngines (s : State) (h : Nat) : Bool :=
  let m := s.coresOf (h / 2)
  let k := h % 2 * 2
  ((m.getD k none).isSome || (m.getD (k + 1) none).isSome) && (s.badLocs 0x06).all (fun l => bits l 0 5 != h)

/-- Whether a half-plain is usable. -/
def State.halfOk (s : State) (h : Nat) : Bool :=
  s.halfEngines h && s.within 0x02 (fun l => bits l 0 5 == h) &&
  s.within 0x03 (fun l => bits l 0 5 == h) && s.within 0x04 (fun l => bits l 0 5 == h)

/-- A mask of the indices below `n` that pass. -/
def maskOf (n : Nat) (f : Nat → Bool) : Nat := ((List.range n).map fun i => b2n (f i) * 2 ^ i).sum

/-- Frames that a row defect touches, as key / 4096: sixteen of one Basin (R240). -/
def rowFrames16 (loc : Nat) : List Nat :=
  let g := bits loc 19 18 * 768 + bits loc 9 4 * 64 + bits loc 13 6
  (List.range 16).map fun i => frameKey (bits loc 0 3) (16 * g + i) 0 / 4096

/-- A frame retired: at once while it is free, on its release while it is allocated or under scrub (Table 12-3). -/
def State.retireFrame (s : State) (k : Nat) : State :=
  let o := frameOwner s (keyBasin (k * 4096)) (keyFrame (k * 4096))
  if s.mem.retired.contains k || s.mem.retireOnFree.contains k then s
  else if o = 32 then { s with mem := { s.mem with retired := s.mem.retired ++ [k] } }
  else { s with mem := { s.mem with retireOnFree := s.mem.retireOnFree ++ [k] } }

/-- A row with no repair retired (R91). -/
def State.retireRow (s : State) (loc : Nat) : State := (rowFrames16 loc).foldl State.retireFrame s

/-- The spare maps and usable units as the defect record gives them (R84, R88, Table 5-5). -/
def State.applyDefects (s : State) : State :=
  { s with boot := { s.boot with
    coreMap := (List.range 16).map s.coresOf,
    hpOk := BitVec.ofNat 32 (maskOf 32 s.halfOk),
    mediaOk := BitVec.ofNat 16 (maskOf 16 fun i => !(s.badLocs 0x0B).contains i),
    passReduced := !(s.badLocs 0x0A).isEmpty,
    fatal := !s.within 0x05 (fun _ => true) || !s.within 0x07 (fun _ => true) || !s.within 0x0C (fun _ => true) } }

/-! ### What an on-die LOCATION spans (R474) -/

/-- Local addresses of a store row, a line-buffer row or the store bank of a column, as first address and bytes; a
collective-buffer row gives the offsets in its bank, which have no local address. -/
def locSpan (typ loc : Nat) : Nat × Nat :=
  match typ with
  | 0x02 => (storeBase + bits loc 0 5 * storeSize + bits loc 5 6 * 0x40000 + bits loc 11 12 * 64, 64)
  | 0x03 => (storeBase + bits loc 0 5 * storeSize + bits loc 5 6 * 0x40000, 0x40000)
  | 0x04 => (lineBase + bits loc 0 5 * 0x100000 + bits loc 5 11 * 384, 384)
  | 0x05 => (bits loc 4 14 * 768, 768)
  | _ => (0, 0)

/-- Whether a byte of the span is touched, and in which bits: a column holds two bits of every row. -/
def locBits (typ loc a : Nat) : Nat :=
  let (b, n) := locSpan typ loc
  if a < b || b + n ≤ a then 0
  else if typ = 0x03 then (if (a - b) % 64 = bits loc 11 8 / 4 then 3 * 4 ^ (bits loc 11 8 % 4) else 0)
  else 255

/-! ### Candidate sets (R96) -/

/-- Width code and lanes of each candidate set, in order. -/
def laneSets : List (Nat × Nat) := [(0, 0xFF), (1, 0x0F), (1, 0xF0), (2, 0x03), (2, 0x0C), (2, 0x30), (2, 0xC0)]

/-- Lanes of a port that the defect record holds. -/
def State.badLanes (s : State) (p : Nat) : Nat :=
  (((s.badLocs 0x0A).filter fun l => bits l 0 5 == p).map fun l => 2 ^ bits l 5 3).foldl (· ||| ·) 0

/-- The first candidate set from `n` on that the profile's width allows and that holds no recorded lane. -/
def State.laneSet (s : State) (p n : Nat) : Option Nat :=
  ((List.range laneSets.length).filter (n ≤ ·)).find? fun i => match laneSets[i]? with
    | some (w, m) => decide (s.prof.width.getD p 0 ≤ w) && m &&& s.badLanes p == 0
    | none => false

/-! ### The capability word (R99, Table 5-8) -/

/-- Enabled cores that are backed. -/
def Boot.cores (b : Boot) : Nat := (b.coreMap.map fun l => (l.filter Option.isSome).length).sum

/-- The word with bit 0 clear. -/
def State.capsBody (s : State) : Nat :=
  let b := s.boot
  let basins := maskOf 8 fun i => (s.basin i).state != .failed
  2 * b2n (b.cores < 64) + 4 * b2n (b.hpOk != BitVec.allOnes 32) + 8 * b2n (basins != 255) +
  16 * b2n (b.framesRetired || !s.mem.retired.isEmpty || !s.mem.retireOnFree.isEmpty) + 32 * b2n b.passReduced +
  64 * b2n (b.mediaOk != BitVec.allOnes 16) + 128 * b2n b.fatal + 256 * b2n b.thermalWithdrawn + b.cores * 2 ^ 16 +
  basins * 2 ^ 24 + b.mediaOk.toNat * 2 ^ 32 + (maskOf 32 (fun i => bit b.hpOk.toNat i) |> fun m => ((List.range 32).filter (bit m)).length) * 2 ^ 48

/-- The capability word. DEGRADED is the OR of bits 1 to 6 and 8, and set by a full record (R89). -/
def State.capsWord (s : State) : Nat :=
  let w := s.capsBody
  w + b2n (bits w 1 6 != 0 || bit w 8 || s.boot.recordFull)

/-- Whether the boot has come to the capability word (Table 5-1). -/
def Stage.computed (g : Stage) : Bool := g == .calibrate || g == .ready || g == .service

/-- The word updated, once the boot has computed it; each change raises EV_CAPS_CHANGED, lasting when a DEGRADED bit rises. The
first word after power-on changes none (log entry 40). PAYLOAD bytes 0 to 7 are the new word. -/
def State.refreshCaps (s : State) : State :=
  let w := s.capsWord
  let old := s.boot.caps.toNat
  if w = old || !s.boot.stage.computed then s
  else
    let s := { s with boot := { s.boot with caps := BitVec.ofNat 64 w } }
    if old = 0 then s else
    let rises := (w &&& 0x17F) &&& (0x17F - (old &&& 0x17F)) != 0
    s.emit [0] EV.capsChanged (if rises then 1 else 2) 0 w

/-- A page of DEV_CAPS. -/
def State.capsPage (s : State) (p : Nat) : Nat :=
  match p with
  | 0 => s.boot.caps.toNat
  | 1 => maskOf 64 fun i => ((s.boot.coreMap.getD (i / 4) []).getD (i % 4) none).isSome
  | 2 => s.boot.hpOk.toNat
  | 3 => maskOf 24 fun i => (s.port i).state != .disabled && (s.port i).state != .failed
  | _ => ((List.range 24).map fun i => (s.port i).width * 4 ^ i).sum

end Sys2Proof.Machine
end

