-- ==== Sys2Proof/Machine/Boot.lean ====
section
/-! DEFINITION. Bring-up rows (R80 to R84), the start tests (R85), the boot decision (R434), the release of PERST_N and the PCIe link (R81, R468), and what WARM and COLD leave (R76 to R79). -/
namespace Sys2Proof.Machine
open Sys2Proof

/-! ### Firmware slots as the boot finds them (Table 22-2) -/

/-- The persisted high-water mark of a slot: the last word of its progress area after TOTAL, or 4,096 (R429). -/
def State.persistedHwm (s : State) (k : Nat) : Nat :=
  let l := (List.range 255).map fun i => field (s.image k) (3076 + 4 * i) 4
  ((l.takeWhile (· != 0xFFFFFFFF)).getLast?).getD 4096

/-- Whether a slot's header sector is erased with no download recorded, or a download is recorded without a header. -/
def State.slotBare (s : State) (k : Nat) : Option SlotState :=
  if field (s.image k) 0 4 = 0x57465A4B then none
  else if field (s.image k) 3072 4 = 0xFFFFFFFF then some .empty
  else some .incomplete

/-- The BODY_DIGEST of a slot. -/
def State.bodyDigest (s : State) (k : Nat) : List Byte := chunk (s.image k) 64 48

/-- The state of the inactive slot after a boot. `trial` says that the running slot is on trial, `fell` that the
inactive one has just fallen back. -/
def State.inactiveAfter (s : State) (k : Nat) (trial fell : Bool) : SlotState :=
  match s.slotBare k with
  | some x => x
  | none =>
    if fell then .downloaded
    else if field (s.image k) 12 2 < s.arbCounter then .invalid
    else if trial then (if s.bootable k then .fallback else .downloaded)
    else match s.fw.slots.getD k .empty with
      | .fallback => .fallback
      | .invalid => if s.boot.kind = 1 then .invalid else .downloaded
      | _ => if s.fw.mark == some (s.bodyDigest k) then .verified else .downloaded

/-- A selector naming a slot, with what its image's header says. -/
def State.selectorFor (s : State) (k : Nat) (confirmed : Bool) (trial : Nat) : Selector :=
  { seq := 0, slot := k, confirmed := confirmed, trial := trial, arb := field (s.image k) 12 2, version := field (s.image k) 8 4 }

/-- The boot decision of R434: the state after it and the slot to jump to, if any. -/
def State.bootDecision (s : State) : State × Option Nat :=
  let sel := s.selector
  let s := if sel.confirmed && s.arbCounter < sel.arb then s.arbAdvance sel.arb else s
  let (s, slot) :=
    if sel.confirmed then (s, sel.slot)
    else if sel.trial = 0 || !s.bootable sel.slot then
      let s := { s with fw := { s.fw with fallback := some (if sel.trial = 0 then 0 else 1, sel.version) } }
      (s.writeSelector (s.selectorFor (1 - sel.slot) true 0), 1 - sel.slot)
    else (s.writeSelector { sel with trial := sel.trial - 1 }, sel.slot)
  let (s, slot) :=
    if !s.bootable slot && s.bootable (1 - slot) then
      let s := { s with fw := { s.fw with fallback := some (1, field (s.image slot) 8 4) } }
      (s.writeSelector (s.selectorFor (1 - slot) true 0), 1 - slot)
    else (s, slot)
  if s.bootable slot then (s, some slot) else (s, none)

/-- Solram's error at COLD or in operation: every key slot zeroised, ERROR, FAULT_N (R407, R408). -/
def State.solramError (s : State) : State :=
  State.fault { s with
    sec := { s.sec with error := true, keys := [] }, fns := s.fns.map fun (x : Fn) => { x with ideKeys := [], ideUp := false },
    ports := s.ports.map fun (x : Port) => { x with keySession := 0 } }

/-- The image of slot `k` boots (R429 to R432): the slots' states, the high-water marks, the measurements, the keys that Solram
derives, and the CP up for the start test. -/
def State.bootInto (s : State) (k : Nat) : State :=
  let trial := !s.selector.confirmed
  let other := s.inactiveAfter (1 - k) trial s.fw.fallback.isSome
  { s with
    fw := { s.fw with
      running := k, version := field (s.image k) 8 4,
      slots := if k = 0 then [if trial then .trial else .active, other] else [other, if trial then .trial else .active],
      persisted := s.persistedHwm (1 - k), hwm := s.persistedHwm (1 - k), written := s.persistedHwm (1 - k),
      mark := if s.boot.kind = 0 then none else s.fw.mark },
    sec := { s.sec with
      measuredFw := chunk (s.image k) 160 48,
      measuredSolram := if s.boot.kind = 0 then chunk (s.image k) 112 48 else s.sec.measuredSolram,
      keys := insertNat 32 (if s.sec.rootSecret then insertNat 34 (insertNat 35 s.sec.keys) else s.sec.keys), drbgCount := s.sec.drbgCount + 1 },
    cp := { up := true, lastBeat := s.now },
    boot := { s.boot with stage := .test } }

/-- Whether the flash that SFDP has described can hold the map of Table 5-3 (R86). -/
def flashFits (part : Option (Nat × Bool)) : Bool := part.any fun x => 2 ^ 26 ≤ x.1

/-- SECURE_BOOT_DONE: the self-tests of a COLD, then what SFDP says of the flash, its bytes and whether it is an octal part (R86),
then the boot decision, and the CP boots. In RMA the first COLD erases the defect record (R414). -/
def execSecureBootDone (selfTests : Bool) (part : Option (Nat × Bool)) (s : State) : Host.Outcome State Fault Refusal :=
  run State.core s fun s =>
    if s.boot.stage != .secureBoot || s.fw.unbootable.isSome || s.sec.error then s
    else if s.boot.kind = 0 && !selfTests then s.solramError
    else
      let s := { s with sec := { s.sec with selfTest := true }, boot := { s.boot with flashPart := part } }
      if !flashFits part then s.fault else
      match s.bootDecision with
      | (s, none) => { s with fw := { s.fw with unbootable := some s.now } }.fault
      | (s, some k) =>
        let s := s.bootInto k
        let s := if s.boot.kind = 0 && s.sec.lifecycle = 3 && !s.sec.rmaErased then
            { s.eraseFlash defectBase 0x10000 with sec := { s.sec with rmaErased := true } } else s
        let s := (List.range 24).foldl State.portLost s
        let s := s.applyDefects
        s.log { code := EV.logBoot, cls := 2, stamp := s.now,
                payload := pay [(0, s.boot.kind), (1, if s.boot.defaultUsed then 255 else s.boot.active), (4, s.fw.version)] }

/-- FLASH_RELEASE: 1 s without a bootable slot, the flash pins go high-impedance (R436). -/
def execFlashRelease (s : State) : Host.Outcome State Fault Refusal :=
  run State.core s fun s =>
    if s.fw.unbootable.any (fun t => t + 1000000000 ≤ s.now) then { s with fw := { s.fw with released := true } } else s

/-! ### Start tests and profile partitions -/

/-- A unit that failed its start test and passed the retest (R85): counted, logged and used. -/
def State.bistPassed (s : State) (typ loc : Nat) : State :=
  ({ s with boot := { s.boot with bistTransient := s.boot.bistTransient + 1 } }).transient typ loc

/-- One failed unit of the start test (R85): transient, or lasting with its entry. -/
def State.startResult (s : State) (x : TestResult) : State :=
  if !x.failed then s
  else if x.again then
    s.recordDefect { typ := x.typ, source := 0, state := s.stateFor x.typ x.loc, temp := x.temp, loc := x.loc }
  else s.bistPassed x.typ x.loc

/-- A partition created, its half-plains running (R102, R212). -/
def State.makePart (s : State) (p : Nat) (c : PartCfg) : State :=
  let s := s.updPart p fun x => { ({} : Part) with
    exist := true, cfg := c, keyEpoch := x.keyEpoch,
    acctCount := c.confidential || (if c.acctOverride then c.acctCount else s.prof.acctCount) }
  if c.confidential then
    { s with sec := { s.sec with keys := insertNat p s.sec.keys, drbgCount := s.sec.drbgCount + 1 } }
  else s

/-- Entry `p` of the profile (R103): without the half-plains that are not usable. RETIRED creates none, and RMA no
confidential one (R414). -/
def State.profilePart (s : State) (p : Nat) : State :=
  let c := s.prof.parts.getD p {}
  let mask := c.hpMask &&& s.boot.hpOk.toNat
  if c.hpMask = 0 || s.sec.lifecycle = 4 || (s.sec.lifecycle = 3 && c.confidential) then s
  else
    let s := if mask = c.hpMask then s else s.emit [0] EV.profileAdjusted 2 (hPart p) (pay [(0, p)])
    if mask = 0 then s else s.makePart p { c with hpMask := mask }

/-- Whether every Basin's state machine has ended. -/
def State.basinsDone (s : State) : Bool := s.basins.all fun b => b.state == .ready || b.state == .failed

/-- The end of start test and training (Table 5-1): spare maps final, the live Basins known, the partitions of the profile created,
the capability word computed. -/
def State.bringUp (s : State) : State :=
  if s.boot.stage == .train && s.basinsDone then
    let s := s.applyDefects
    let s := { s with mem := { s.mem with live := (List.range 8).filter fun b => (s.basin b).state != .failed } }
    let s := (List.range 32).foldl State.profilePart s
    ({ s with boot := { s.boot with stage := .calibrate } }).refreshCaps
  else s

/-- START_TEST_DONE, once every Plain's generator has locked and its logic is out of reset (R14): failures judged, stores zero and
Plains running; the Basins train beside it, and what ends last brings the device up. -/
def execStartTestDone (results : List TestResult) (s : State) : Host.Outcome State Fault Refusal :=
  run State.core s fun s =>
    if s.boot.stage != .test || s.plains.any (!·.locked) then s
    else
      let s := results.foldl State.startResult s
      State.bringUp { s with
        plains := s.plains.mapIdx fun p (x : Plain) => ({ x with
          state := .run, since := s.now, target := min 76 (s.prof.freqCap.getD p 0) } : Plain),
        mem := { s.mem.zero storeBase affineBase with panels := [] },
        boot := { s.boot with stage := .train } }

/-- CALIBRATION_DONE, once the device is brought up (R198). -/
def execCalibrationDone (costs : List Cost) (beRate : Nat) (s : State) : Host.Outcome State Fault Refusal :=
  run State.core s fun s =>
    if s.boot.stage == .calibrate && !s.boot.calibrated then
      { s with boot := { s.boot with calibrated := true }, sched := { s.sched with costs := costs, beRate := beRate } }
    else s

/-- EV_ACCT_FINAL for each partition of the snapshot (R78). -/
def State.finalSnap (s : State) : State :=
  let l := s.logs.snap
  let s := { s with logs := { s.logs with snap := [] } }
  l.foldl (fun s x => s.emit [0] EV.acctFinal 2 (hPart x.1) (pay [(0, x.2.2.getD 0 0), (8, x.2.2.getD 1 0)]) true (hide := x.2.1)) s

/-- DEVICE_READY: READY with EV_DEVICE_READY, or SERVICE (R84, R414); the fallback of R435 and the final accounting of R78
follow. -/
def execDeviceReady (s : State) : Host.Outcome State Fault Refusal :=
  run State.core s fun s =>
    if s.boot.stage != .calibrate || !s.boot.calibrated then s
    else
      let service := s.boot.fatal || s.sec.lifecycle == 4
      let s := { s with boot := { s.boot with stage := if service then .service else .ready } }
      let s := if service then s else s.emit [0] EV.deviceReady 2
      let s := match s.fw.fallback with
        | some (c, v) => s.emit [0] EV.fwFallback 2 0 (pay [(0, c), (4, v)])
        | none => s
      s.finalSnap

/-! ### WARM (R78, R79, R83) -/

/-- Whether a WARM can be performed: power is good, no power-down to OFF or FAULT_OFF runs, and the ladder is below
level 2. -/
def State.warmable (s : State) : Bool :=
  s.sup.powerGood && s.sup.level2At.isNone && s.power.chip != .off && s.power.chip != .faultOff &&
  (match s.sup.seq with
    | .down _ g => g == .stby
    | _ => true)

/-- The rails that a WARM out of STBY, or out of the way there or back, has still to see judged good. -/
def State.warmRails (s : State) : List Nat :=
  match s.sup.seq with
  | .up l => l
  | _ => (List.range 16).filter fun c => (s.rail c).cfg.used && !(s.rail c).enabled

/-- HBM over a WARM: kept, but what a confidential partition's key covered is unreadable, and in SECURED all of it
(R78, Table 21-5). -/
def State.warmMem (s : State) : Memory :=
  let lost := (List.range 32).flatMap fun p => if (s.part p).cfg.confidential then s.partFrames p else []
  let m := lost.foldl (fun (m : Memory) (r : Nat × Nat) => m.rotate (r.1 * 4096) (r.2 * 4096)) s.mem
  let m := if s.sec.lifecycle = 2 then m.rotate affineBase (2 ^ 40) else m
  { m.zero storeBase affineBase with
    panels := [], allocs := [], scrubbing := [], retired := m.retired ++ m.retireOnFree, retireOnFree := [],
    live := (List.range 8).filter fun b => (s.basin b).state != .failed }

/-- A Basin over a WARM: its training and temperature stay, its queue and controller state do not (R83). -/
def Basin.warm (b : Basin) : Basin :=
  { state := match b.state with
      | .failed => .failed
      | .ready | .drain => .ready
      | .train => if b.retraining then .ready else .reset
      | .repair => if b.repairing.isSome then .ready else .reset
      | _ => .reset,
    temp := b.temp, trainTemp := b.trainTemp, soft := b.soft }

/-- A Plain over a WARM: its generator, its sensors and what its power controller has decided stay. Table 4-7 has no row for the
thermal duty and frequency limits, and no setting returns to a default without one (R79; DEDUCED, log entry 142). -/
def Plain.warm (x : Plain) : Plain :=
  { hottest := x.hottest, current := x.current, locked := x.locked, stepAt := x.stepAt, sampledAt := x.sampledAt, duty := x.duty,
    limit := x.limit, limitAt := x.limitAt, below := x.below }

/-- The WARM reset: everything outside the AON domain and Solram, by Table 4-7. The pending profile, if any, is
selected, its rail entries aside (R108). -/
def State.warm (s : State) : State :=
  let snap := s.logs.snap ++ (List.range 32).filterMap fun p =>
    if (s.part p).exist then some (p, (s.part p).cfg.confidential, (List.range 9).map (s.partTotal p)) else none
  let idx := s.boot.pendingIdx.getD s.boot.active
  let pend := s.boot.pendingIdx.isSome
  let ok := !pend || s.storedCheck idx == 0
  let lift := s.warmRails
  let t : State := { State.reset with
    now := s.now, clk := s.clk, flash := s.flash, host := s.host, readData := s.readData, fresh := s.fresh,
    pending := s.pending, mem := s.warmMem, fw := { s.fw with
      hwm := s.fw.persisted, written := s.fw.persisted, busy := none, verify := none, waiting := [], fallback := none, unbootable := none },
    rails := s.rails.map fun (r : Rail) => (if s.power.chip == .qsc && r.cfg.avs && r.enabled then
      { r with target := r.resume, moving := some r.target, movedAt := s.now, settleFault := false } else r),
    sup := s.sup, plains := s.plains.map Plain.warm,
    power := { perstLow := s.power.perstLow, perstRise := s.power.perstRise },
    boot := { stage := if lift.isEmpty then .secureBoot else .rails, kind := 1, pin := s.boot.pin, active := idx,
              defaultUsed := if pend then !ok else s.boot.defaultUsed,
              badProfile := if ok then s.boot.badProfile else some idx, clamped := s.boot.clamped, caps := s.boot.caps },
    prof := if pend then (if ok then profileOf (s.flashByte (profileBase idx)) else Profile.default) else s.prof,
    logs := { s.logs with snap := snap }, dbg := { perf := s.dbg.perf },
    basins := s.basins.map Basin.warm,
    valley := { left := s.leaveLinks },
    sec := { s.sec with
      keys := s.sec.keys.filter (fun k => k == 32 || k == 34 || k == 35), unlock := [], lifecycleReq := none,
      drbgCount := s.sec.drbgCount + b2n (s.sec.lifecycle == 2) } }
  let t := if ok then t else t.emit [0] EV.profileInvalid 2 0 (pay [(0, idx)])
  let t := t.setLevel 0
  match lift with
  | [] => t
  | c :: _ => if (t.rail c).enabled then t else ({ t with sup := { t.sup with seq := .up lift } }).railOn c

/-- COLD_RESET: the full boot from rail sequencing. -/
def execColdReset (s : State) : Host.Outcome State Fault Refusal := run State.aon s State.cold

def chkDevResetWarm (s : State) (_ : Block) (_ : Taken) : Option (Nat × Nat) :=
  if 2 ≤ s.ladderLevel then some (ST.powerDownPending, 0) else none

def effDevResetWarm (s : State) (r : Req) (_ : Taken) : State :=
  let s := s.complete r ST.ok
  { s with power := { s.power with warmDue := true } }

/-- DEV_RESET_WARM: completes with ST_OK; the WARM starts once the completion has been written (R163). A CP exception in between
is not told apart (log entry 141). -/
def execDevResetWarm (m : Nat) (c : Cmd) (s : State) : Host.Outcome State Fault Refusal :=
  run State.core s fun s => lolin 0x0104 m { c with cut := false } s chkDevResetWarm effDevResetWarm

/-! ### PERST_N and the link (R75, R81, R112, R468) -/

/-- PERST_N_RELEASE: link training is due 20 ms later; from OFF a COLD after a low of 100 µs. -/
def execPerstNRelease (s : State) : Host.Outcome State Fault Refusal :=
  run State.always s fun s =>
    match s.power.perstLow with
    | none => s
    | some t =>
      let s := { s with power := { s.power with perstLow := none, perstRise := s.now } }
      if s.aon && s.power.chip == .off && s.sup.seq == .steady && t + 100000 ≤ s.now then s.cold else s

/-- PCIE_LINK_TRAIN_START: 20 ms after the release. -/
def execPcieLinkTrainStart (s : State) : Host.Outcome State Fault Refusal :=
  run State.core s fun s =>
    if s.power.perstLow.isNone && !s.hif.up && s.power.perstRise + 20000000 ≤ s.now then
      { s with hif := { s.hif with training := true } }
    else s

/-- PCIE_LINK_TRAINED at a width and rate; a retraining counts as an entry to Recovery (Table 24-7). -/
def execPcieLinkTrained (width rate : Nat) (flit : Bool) (s : State) : Host.Outcome State Fault Refusal :=
  run State.core s fun s =>
    if (s.hif.training || s.hif.up) && [1, 2, 4, 8, 16].contains width && 1 ≤ rate && rate ≤ 4 && (rate != 4 || flit) then
      { s with hif := { s.hif with
          up := true, training := false, width := width, rate := rate, flit := flit, pm := 0,
          recoveries := if s.hif.up then sat 16 (s.hif.recoveries + 1) else s.hif.recoveries } }
    else s

end Sys2Proof.Machine
end

