-- ==== Sys2Proof/Machine/Device.lean ====
section
/-! DEFINITION. The DEV, PROFILE and TEST commands, and CMD slots as they are read and written (R108, R109, R162 to R164, Table 8-16). -/
namespace Sys2Proof.Machine
open Sys2Proof

/-! ### CMD slots (R162) -/

/-- Local address and size of the slot a command holds. -/
def State.slotArea (s : State) (r : Req) (t : Taken) : Option (Nat × Nat) :=
  t.slot.map fun x => ((s.window r.m x.1).slotAddr x.2, (s.window r.m x.1).slotSize)

/-- A command's output written to its slot, cut at SLOT_SIZE. -/
def State.slotWrite (s : State) (r : Req) (t : Taken) (l : List Byte) : State :=
  match s.slotArea r t with
  | some (a, n) => s.store a (l.take n)
  | none => s

/-- The bytes of the slot a command holds. -/
def State.slotRead (s : State) (r : Req) (t : Taken) : Reader :=
  match s.slotArea r t with
  | some (a, n) => fun i => if i < n then s.rd8 (a + i) else 0
  | none => fun _ => 0

/-- The size of the slot an entry names, where its window is mapped. -/
def State.namedSize (s : State) (m w : Nat) : Option Nat :=
  if (s.window m w).mapped then some (s.window m w).slotSize else none

/-! ### DEV -/

/-- DEV_INFO RESULT. -/
def State.devInfo (s : State) (page : Nat) : Nat :=
  if page = 0 then 0x0760 + 0x01 * 2 ^ 16 + s.sec.lifecycle * 2 ^ 24 + s.fw.version * 2 ^ 32 else s.sec.serial.toNat

def effDevInfo (s : State) (r : Req) (t : Taken) : State := s.complete r ST.ok (s.devInfo (eParam t.entry 0 0 8))

/-- DEV_INFO. -/
def execDevInfo (m : Nat) (c : Cmd) (s : State) : Host.Outcome State Fault Refusal :=
  run State.core s fun s => lolin 0x0101 m c s noCheck effDevInfo

def effDevCaps (s : State) (r : Req) (t : Taken) : State := s.complete r ST.ok (s.capsPage (eParam t.entry 0 0 8))

/-- DEV_CAPS. -/
def execDevCaps (m : Nat) (c : Cmd) (s : State) : Host.Outcome State Fault Refusal :=
  run State.core s fun s => lolin 0x0102 m c s noCheck effDevCaps

def effDevTimeGet (s : State) (r : Req) (t : Taken) : State := s.complete r ST.ok t.stamp

/-- DEV_TIME_GET: device time at TAKEN. -/
def execDevTimeGet (m : Nat) (c : Cmd) (s : State) : Host.Outcome State Fault Refusal :=
  run State.core s fun s => lolin 0x0103 m c s noCheck effDevTimeGet

/-! ### PROFILE (R108, R109) -/

/-- The refusal of a profile that does not pass R101, with the offset of the field that named it. -/
def profileRefusal (check off : Nat) : Option (Nat × Nat) :=
  match check with
  | 0 => none
  | 1 => some (ST.invalidArg, off)
  | _ => some (ST.secDenied, 0)

def chkProfileApply (s : State) (e : Block) (_ : Taken) : Option (Nat × Nat) :=
  let i := eParam e 0 0 8
  if i < 4 then profileRefusal (s.storedCheck i) 16 else none

/-- Flash work appended; its command waits. -/
def State.addWork (s : State) (r : Req) (w : Work) : State :=
  { s with boot := { s.boot with work := s.boot.work ++ [w] } }.wait r

def effProfileApply (s : State) (r : Req) (t : Taken) : State :=
  let i := eParam t.entry 0 0 8
  let s := { s with boot := { s.boot with pendingIdx := if i < 4 then some i else none } }
  if eParam t.entry 1 0 1 = 0 then s.complete r ST.ok
  else s.addWork r (.override r (decide (i < 4)) (i % 4))  -- INDEX 3 beside VALID 0: DESIGN CHOICE, log entry 151

/-- PROFILE_APPLY. -/
def execProfileApply (m : Nat) (c : Cmd) (s : State) : Host.Outcome State Fault Refusal :=
  run State.core s fun s => lolin 0x0201 m c s chkProfileApply effProfileApply

/-- The image of a PROFILE_WRITE checked under R101. -/
def State.slotProfile (s : State) (r : Req) (t : Taken) : Nat :=
  let rd := s.slotRead r t
  s.profileCheck rd (eParam t.entry 0 0 2) (zeros rd 0x680 (0x10000 - 0x680))

/-- A slot below 64 KiB gives ST_INVALID_ARG with the offset of SLOT (R164); so does an image that is not valid (log
entry 41). No index is active while the built-in default is in use, and the image's SEQ is the host's own (DEDUCED, log entry 152). -/
def chkProfileWrite (m : Nat) (s : State) (e : Block) (t : Taken) : Option (Nat × Nat) :=
  let i := eParam e 0 0 2
  if (s.namedSize m (eParam e 1 0 6)).any (· < 0x10000) then some (ST.invalidArg, 18)
  else if t.slot.isNone then some (ST.fordNotOwned, 0)
  else if (!s.boot.defaultUsed && s.boot.active == i) || s.overrideIndex == some i then some (ST.profileInUse, 0)
  else profileRefusal (s.slotProfile ⟨m, eId e⟩ t) 18

def effProfileWrite (s : State) (r : Req) (t : Taken) : State :=
  let i := eParam t.entry 0 0 2
  match s.slotArea r t with
  | some (a, _) => (s.eraseFlash (profileBase i) 0x10000).addWork r (.profile r i a 0)
  | none => s

/-- PROFILE_WRITE. -/
def execProfileWrite (m : Nat) (c : Cmd) (s : State) : Host.Outcome State Fault Refusal :=
  run State.core s fun s => lolin 0x0202 m c s (chkProfileWrite m) effProfileWrite

def effProfileRead (s : State) (r : Req) (t : Taken) : State :=
  (s.slotWrite r t (chunk (s.flashByte (profileBase (eParam t.entry 0 0 2))) 0 0x10000)).complete r ST.ok 0x10000

/-- PROFILE_READ. -/
def execProfileRead (m : Nat) (c : Cmd) (s : State) : Host.Outcome State Fault Refusal :=
  run State.core s fun s => lolin 0x0203 m c s slotCheck effProfileRead

/-! ### TEST (R85, R89) -/

def effTestDefectsRead (s : State) (r : Req) (t : Taken) : State :=
  let size := ((s.slotArea r t).map (·.2)).getD 0
  let l := ((s.defectUsed.filter fun i => eParam t.entry 4 0 12 ≤ i && (s.defectAt i).isSome).take (size / 16))
  (s.slotWrite r t (l.flatMap fun i => chunk (s.defectSlot i) 0 16)).complete r ST.ok l.length

/-- TEST_DEFECTS_READ. -/
def execTestDefectsRead (m : Nat) (c : Cmd) (s : State) : Host.Outcome State Fault Refusal :=
  run State.core s fun s => lolin 0x0E01 m c s slotCheck effTestDefectsRead

/-- Whether a partition owns or uses a unit (Table 8-16; log entry 42). -/
def State.unitUsed (s : State) (typ loc : Nat) : Bool :=
  let half (h : Nat) := (halfOwner s h).isSome
  match typ with
  | 0x01 => s.plainOwned (bits loc 0 4)
  | 0x02 | 0x03 | 0x04 | 0x06 => half (bits loc 0 5)
  | 0x05 => !s.coll.groups.isEmpty
  | 0x07 => s.parts.any (·.exist)
  | 0x08 => (rowFrames16 loc).any fun k =>
      let o := frameOwner s (keyBasin (k * 4096)) (keyFrame (k * 4096))
      o < 32 || o == 33
  | 0x09 => (List.range 32).any fun p => (s.partBasins p).contains (bits loc 0 3)
  | 0x0A => (s.port (bits loc 0 5)).state == .up
  | 0x0B => s.media.encs.any (fun x => x.cores.contains loc) || s.media.decs.any (fun x => x.core == loc)
  | _ => false

def chkTestRun (s : State) (e : Block) (_ : Taken) : Option (Nat × Nat) :=
  let typ := eParam e 0 0 8
  let loc := eParam e 8 0 64
  if s.unitUsed typ loc then some (ST.unitInUse, 0)
  else none

def effTestRun (s : State) (r : Req) (t : Taken) : State :=
  { s with boot := { s.boot with tests := s.boot.tests ++ [(r, eParam t.entry 0 0 8, eParam t.entry 8 0 64)] } }.wait r

/-- TEST_RUN: the start test of one unit begins. -/
def execTestRun (m : Nat) (c : Cmd) (s : State) : Host.Outcome State Fault Refusal :=
  run State.core s fun s => lolin 0x0E02 m c s chkTestRun effTestRun

/-- Hottest sensor of the block a defect lies in, in °C, as far as the device has one there (log entry 43). -/
def State.blockTemp (s : State) (typ loc : Nat) : Int :=
  match typ with
  | 0x01 | 0x05 | 0x07 => (s.plain (bits loc 0 4)).hottest / 4
  | 0x02 | 0x03 | 0x04 | 0x06 => (s.plain (bits loc 0 5 / 2)).hottest / 4
  | 0x08 | 0x09 => (s.basin (bits loc 0 3)).temp
  | _ => (s.plains.map (·.hottest)).foldl max (-500) / 4

/-- A lasting fault found at runtime: recorded and isolated at once (R85). Spare rows, columns and tracks come in at the
next boot, and what their exhaustion means, an unusable half-plain or FATAL, applies from then (Table 23-1). A row of HBM is retired
(R252). `gone` is a mask of half-plains that leave HP_OK with it. -/
def State.lasting (s : State) (typ source loc : Nat) (gone : Nat := 0) : State :=
  let t := (s.recordDefect { typ := typ, source := source, state := s.stateFor typ loc, temp := s.blockTemp typ loc, loc := loc }).applyDefects
  let t := if typ = 0x08 then t.retireRow loc else t
  { t with boot := { t.boot with
      hpOk := s.boot.hpOk &&& BitVec.ofNat 32 (maskOf 32 fun h => t.halfEngines h && !bit gone h), fatal := s.boot.fatal } }.refreshCaps

/-- TEST_RUN_DONE: PASS, TRANSIENT or LASTING. -/
def execTestRunDone (failed again : Bool) (s : State) : Host.Outcome State Fault Refusal :=
  run State.core s fun s =>
    match s.boot.tests with
    | [] => s
    | (r, typ, loc) :: rest =>
      let s := { s with boot := { s.boot with tests := rest } }
      if !failed then s.complete r ST.ok 0
      else if !again then (s.transient typ loc).complete r ST.ok 1
      else (s.lasting typ 5 loc).complete r ST.ok 2

end Sys2Proof.Machine
end

