-- ==== Sys2Proof/Machine/Firmware.lean ====
section
/-! DEFINITION. Firmware update (chapter 22): download, verify, activate, confirm and status, one at a time in ring order (R439), and the steps of flash work. -/
namespace Sys2Proof.Machine
open Sys2Proof

/-- FW_STATUS codes (Table 22-2). -/
def SlotState.code : SlotState → Nat
  | .empty => 0
  | .incomplete => 1
  | .downloaded => 2
  | .verified => 3
  | .invalid => 4
  | .pending => 5
  | .trial => 6
  | .active => 7
  | .fallback => 8

def State.slotState (s : State) (k : Nat) : SlotState := s.fw.slots.getD k .empty
def State.setSlot (s : State) (k : Nat) (x : SlotState) : State :=
  { s with fw := { s.fw with slots := updAt s.fw.slots k fun _ => x } }
/-- The inactive slot. -/
def State.other (s : State) : Nat := 1 - s.fw.running
/-- TOTAL as recorded in the progress area. -/
def State.fwTotal (s : State) : Nat := field (s.image s.other) 3072 4

/-! ### Checks -/

/-- FW_DOWNLOAD (R428, R430, Table 8-15). -/
def downloadCheck (s : State) (e : Block) (t : Taken) : Option (Nat × Nat) :=
  let off := eParam e 4 0 32
  let len := eParam e 8 0 32
  let total := eParam e 12 0 32
  let st := s.slotState s.other
  let big : Bool := match t.slot with
    | some (w, _) => decide ((s.window 0 w).slotSize < len)
    | none => (s.namedSize 0 (eParam e 0 0 6)).any (· < len)
  let rd := s.slotRead ⟨0, eId e⟩ t
  let k := s.other
  if big then some (ST.invalidArg, 24)
  else if t.slot.isNone then some (ST.fordNotOwned, 0)
  else if total < off + len || 31 * mib < off + len then some (ST.fwRange, 0)
  else if st == .pending || st == .trial || s.slotState s.fw.running == .trial then some (ST.fwState, 0)
  else if off = 4096 then none
  else if st != .incomplete || total != s.fwTotal then some (ST.fwState, 0)
  else if off = 0 then (if len = 4096 && s.fw.hwm = total then none else some (ST.fwState, 0))
  else if s.fw.hwm < off then some (ST.fwState, 0)
  else
    let n := min len (s.fw.persisted - off)
    if (List.range n).all fun i => rd i == s.image k (off + i) then none else some (ST.fwState, 0)

/-- The check of an FW command as it starts (R430 to R437). -/
def fwCheck (s : State) (e : Block) (t : Taken) : Option (Nat × Nat) :=
  let st := s.slotState s.other
  let bad : Option (Nat × Nat) := some (ST.fwState, 0)
  match eOpcode e with
  | 0x0D01 => downloadCheck s e t
  | 0x0D02 => if st == .downloaded || st == .verified || st == .invalid then none else bad
  | 0x0D03 => if st == .verified || st == .fallback || st == .pending then none else bad
  | _ => if s.slotState s.fw.running == .trial then none else bad

/-! ### Starting and ending -/

/-- A new download: the header sector erased, TOTAL recorded, the slot INCOMPLETE (R428). -/
def State.newDownload (s : State) (total : Nat) : State :=
  let k := s.other
  let s := (s.eraseFlash (slotBase k) 4096).program (slotBase k + 3072) (leBytes 4 total)
  { s with fw := { s.fw with hwm := 4096, written := 4096, persisted := 4096 } }.setSlot k .incomplete

/-- An FW command begins; the answer is whether it is done at once, with its RESULT. -/
def State.fwBegin (s : State) (r : Req) (t : Taken) : State × Option Nat :=
  let e := t.entry
  let s := { s with fw := { s.fw with busy := some r } }
  match eOpcode e with
  | 0x0D01 =>
    let off := eParam e 4 0 32
    let len := eParam e 8 0 32
    let total := eParam e 12 0 32
    let s := { s with fw := { s.fw with mark := none } }
    let s := if off = 4096 then s.newDownload total else s
    let next := if off = 0 then 0 else max off s.fw.persisted
    match s.slotArea r t with
    | some (a, _) =>
      if off != 0 && off + len ≤ next then (s, some s.fw.hwm)
      else (s.addWork r (.download r a off len total next), none)
    | none => (s, some s.fw.hwm)
  | 0x0D02 => ({ s with fw := { s.fw with verify := some r } }.wait r, none)
  | 0x0D03 =>
    let k := s.other
    if s.slotState k == .pending then (s, some 0)
    else (s.addWork r (.activate r k (field (s.image k) 12 2) (field (s.image k) 8 4) (s.slotState k == .fallback)), none)
  | _ => (s.addWork r (.confirm r 0), none)

/-- The FW command under way is over; those behind it begin in order until one waits (R439). -/
def State.fwNext (s : State) : Nat → State
  | 0 => { s with fw := { s.fw with busy := none } }
  | n + 1 =>
    let s := { s with fw := { s.fw with busy := none } }
    match s.fw.waiting with
    | [] => s
    | r :: rest =>
      let s := { s with fw := { s.fw with waiting := rest } }
      match s.taken r with
      | none => State.fwNext s n
      | some t => match fwCheck s t.entry t with
        | some (st, res) => State.fwNext (s.complete r st res) n
        | none => match s.fwBegin r t with
          | (s, some res) => State.fwNext (s.complete r ST.ok res) n
          | (s, none) => s

/-- An FW command ends with a status, and the next one begins. -/
def State.fwEnd (s : State) (r : Req) (status result : Nat) : State :=
  (s.complete r status result).fwNext (s.fw.waiting.length + 1)

/-- The check of an FW command that is taken: one taken while another is under way waits behind it unchecked. -/
def chkFw (s : State) (e : Block) (t : Taken) : Option (Nat × Nat) := if s.fw.busy.isSome then none else fwCheck s e t

def effFw (s : State) (r : Req) (t : Taken) : State :=
  if s.fw.busy.isSome then { s with fw := { s.fw with waiting := s.fw.waiting ++ [r] } }.wait r
  else match s.fwBegin r t with
    | (s, some res) => s.fwEnd r ST.ok res
    | (s, none) => s

/-- FW_DOWNLOAD. -/
def execFwDownload (m : Nat) (c : Cmd) (s : State) : Host.Outcome State Fault Refusal :=
  run State.core s fun s => lolin 0x0D01 m c s chkFw effFw
/-- FW_VERIFY. -/
def execFwVerify (m : Nat) (c : Cmd) (s : State) : Host.Outcome State Fault Refusal :=
  run State.core s fun s => lolin 0x0D02 m c s chkFw effFw
/-- FW_ACTIVATE. -/
def execFwActivate (m : Nat) (c : Cmd) (s : State) : Host.Outcome State Fault Refusal :=
  run State.core s fun s => lolin 0x0D03 m c s chkFw effFw
/-- FW_CONFIRM. -/
def execFwConfirm (m : Nat) (c : Cmd) (s : State) : Host.Outcome State Fault Refusal :=
  run State.core s fun s => lolin 0x0D04 m c s chkFw effFw

/-- FW_STATUS RESULT. -/
def State.fwStatus (s : State) : Nat :=
  (s.slotState 0).code + (s.slotState 1).code * 2 ^ 4 + s.fw.running * 2 ^ 8 + s.selector.trial * 2 ^ 9 + s.arbCounter * 2 ^ 16 +
    s.fw.hwm * 2 ^ 32

def effFwStatus (s : State) (r : Req) (_ : Taken) : State := s.complete r ST.ok s.fwStatus

/-- FW_STATUS. -/
def execFwStatus (m : Nat) (c : Cmd) (s : State) : Host.Outcome State Fault Refusal :=
  run State.core s fun s => lolin 0x0D05 m c s noCheck effFwStatus

/-- FW_VERIFY_DONE: VERIFIED with Solram's mark, or INVALID with the cause (R431). A verification that a CPR meets runs again from
its start after the restart (R439). -/
def execFwVerifyDone (s : State) : Host.Outcome State Fault Refusal :=
  run State.core s fun s =>
    match (if s.cpUp then s.fw.verify else none) with
    | none => s
    | some r =>
      let k := s.other
      let cause := s.imageCause k
      let s := { s with fw := { s.fw with verify := none, mark := if cause = 0 then some (s.bodyDigest k) else none } }
      if cause = 0 then (s.setSlot k .verified).fwEnd r ST.ok 0
      else (s.setSlot k .invalid).fwEnd r ST.fwVerifyFailed cause

/-! ### Flash work (R428, R429, R432, R439) -/

/-- HWM after a sector, and each multiple of 1 MiB it crosses persisted. A download that goes on after a CPR counts the sectors it
had programmed before (R428, R439). -/
def State.raiseHwm (s : State) (next : Nat) : State :=
  if s.fw.written < next || next + 4096 ≤ s.fw.hwm then s
  else
    let s := { s with fw := { s.fw with hwm := next + 4096, written := max s.fw.written (next + 4096) } }
    if (next + 4096) % mib = 0 then
      let k := s.other
      let i := ((List.range 255).find? fun i => field (s.image k) (3076 + 4 * i) 4 == 0xFFFFFFFF).getD 254
      { s.program (slotBase k + 3076 + 4 * i) (leBytes 4 (next + 4096)) with fw := { s.fw with persisted := next + 4096 } }
    else s

/-- The next step of the flash work at the head. -/
def State.workStep (s : State) (w : Work) (rest : List Work) : State :=
  let keep (s : State) (w : Work) : State := { s with boot := { s.boot with work := w :: rest } }
  let done (s : State) : State := { s with boot := { s.boot with work := rest } }
  match w with
  | .override r v i => (done (s.writeOverride v i)).complete r ST.ok
  | .profile r i a k =>
    let s := s.program (profileBase i + 4096 * k) (s.rd (a + 4096 * k) 4096)
    if k = 15 then (done s).complete r ST.ok else keep s (.profile r i a (k + 1))
  | .download r a off len total next =>
    let k := s.other
    if off = 0 then
      let s := s.program (slotBase k) (s.rd a 3072)
      (done (s.setSlot k .downloaded)).fwEnd r ST.ok total
    else
      let s := (s.eraseFlash (slotBase k + next) 4096).program (slotBase k + next) (s.rd (a + (next - off)) 4096)
      let s := s.raiseHwm next
      if off + len ≤ next + 4096 then (done s).fwEnd r ST.ok s.fw.hwm
      else keep s (.download r a off len total (next + 4096))
  | .activate r k arb version confirmed =>
    let s := s.writeSelector { seq := 0, slot := k, confirmed := confirmed, trial := if confirmed then 0 else 3, arb := arb, version := version }
    let s := if confirmed && s.slotState s.fw.running == .trial then s.setSlot s.fw.running .downloaded else s
    (done (s.setSlot k .pending)).fwEnd r ST.ok 0
  | .confirm r stage =>
    let run' := s.fw.running
    let target := field (s.image run') 12 2
    let s := if stage = 0 then s.writeSelector (s.selectorFor run' true 0) else s.arbAdvance target
    if stage = 0 && s.arbCounter < target then keep s (.confirm r 1)
    else
      let s := s.setSlot run' .active
      let s := s.setSlot s.other (if s.bootable s.other then .fallback else .invalid)
      (done s).fwEnd r ST.ok s.arbCounter

/-- FLASH_SECTOR_PROGRAMMED: one step of the flash work under way. While the CP is down none is programmed, and the work goes on
from its last step after the restart (R155, R439). -/
def execFlashSectorProgrammed (s : State) : Host.Outcome State Fault Refusal :=
  run State.core s fun s =>
    match s.boot.work with
    | [] => s
    | w :: rest => if s.cpUp then s.workStep w rest else s

end Sys2Proof.Machine
end

