-- ==== Sys2Proof/Machine/FordRows.lean ====
section
/-! DEFINITION. Ford windows at work: the scan that takes slots (R126, R130 to R132, R137), host writes into BAR2 (R119, R124, R129), FORD_MAP and FORD_UNMAP (R125). -/
namespace Sys2Proof.Machine
open Sys2Proof

/-- The master that stands for a function: its partition, or ADMIN for the PF (R116, R120). -/
def fnOwner (f : Nat) : Nat := if f = 0 then 33 else f - 1

/-- BAR2 of a function answers: the device is out of POR, the VF is enabled. A doorbell or a mailbox write before the
READY of a reset is ignored (R118). -/
def State.fnOpen (s : State) (f : Nat) : Bool := f < 33 && (s.fn f).enabled && (f == 0 || (s.part (f - 1)).step == 0)

/-! ### Taking slots (R126, R130) -/

/-- The sync object of a window's EVENT binding. -/
def State.boundEvent (s : State) (f : Nat) (x : Window) : Option SyncObj := s.syncOf (f - 1) x.target

/-- A slot given to its consumer: the EVENT rises by 1; a decoder takes it as input. `none` where the consumer takes
none: an EVENT that is gone, a decoder STOPPED or gone. Slots of encoders and commands are not taken by a scan. -/
def State.consume (s : State) (f w i : Nat) : Option State :=
  let x := s.window f w
  match x.bind with
  | 0 => (s.boundEvent f x).map fun o => s.signalObj o ⟨s.chip, 32, 0⟩ 1
  | 1 =>
    match s.decOf (f - 1) x.target with
    | some d => if d.stopped then none else
        some { s with media := { s.media with decs := s.media.decs.map fun y =>
          if y.index == d.index then { y with slots := y.slots ++ [(w, i, s.now)] } else y } }
    | none => none
  | _ => none

/-- Slots taken from the head, `n` at most, under R130. -/
def State.takeSlots (s : State) (f w : Nat) : Nat → State
  | 0 => s
  | n + 1 =>
    let x := s.window f w
    let y := x.slot x.head
    if y.owner != 2 || y.taken || x.unbound || x.unmapping.isSome || x.shrunk then s
    else if s.anyPoison (x.slotAddr x.head) x.slotSize then s.poisonSlot f w x.head 0
    else match s.consume f w x.head with
      | none => if x.bind = 0 then s.updWindow f w fun x => { x with unbound := true } else s
      | some s =>
        let s := s.updSlot f w x.head fun y => { y with taken := true }
        State.takeSlots (s.updWindow f w fun x => { x with head := (x.head + 1) % x.count }) f w n

/-- A scan toward TAIL. With TAIL at the head it goes once round the ring, as after a hand-off of every slot (log
entry 44). -/
def State.scan (s : State) (f w tail : Nat) : State :=
  let x := s.window f w
  let n := (tail + x.count - x.head) % x.count
  s.takeSlots f w (if n = 0 then x.count else n)

/-- A doorbell that arrives in QSC, or during an entry, is a wake source (R71, R73). -/
def State.doorbellWake (s : State) : State := if s.power.chip == .qsc || s.power.entry.isSome then s.wake else s

/-- BAR0 offset of Ford doorbell `w` of a function (Table 6-4). -/
def fordOff (m w : Nat) : Nat := (if m = 0 then 0x20000 else 0x2000) + 8 * w

/-- A Ford doorbell acted on: a scan, whose repeat is due 20 µs later where it stops before TAIL (R131). -/
def State.fordDoorbell (s : State) (m w tail : Nat) : State :=
  let x := s.window m w
  if !s.fnOpen m || 64 ≤ w then s
  else if !x.mapped || x.count ≤ tail then s.violate m w
  else
    let s := s.scan m w tail
    if (s.window m w).head = tail then s else s.updWindow m w fun x => { x with rescans := x.rescans ++ [(s.now, tail)] }

/-- A write of FORD_DBw, TAIL in bits [11:0]. -/
def State.dbWrite (s : State) (m w v : Nat) : State :=
  let x := s.window m w
  let tail := bits v 0 12
  if !s.fnOpen m || 64 ≤ w || !x.mapped || x.count ≤ tail then s.fordDoorbell m w tail
  else (s.fordDoorbell m w tail).doorbellWake.advance

/-- FORD_DB_WRITE: a doorbell starts a scan; one that stops before TAIL is repeated 20 µs later. In STBY, and on the way
there, the keeper latches it (R73). -/
def execFordDbWrite (m w : Nat) (v : BitVec 32) (ide : Bool) (s : State) : Host.Outcome State Fault Refusal :=
  barRun State.keeper m ide false s fun s =>
    if s.core then s.dbWrite m w v.toNat
    else if s.suspended && w < 64 then s.latchDoorbell m (fordOff m w) v.toNat else s

/-- FORD_RESCAN, 20 µs after a scan that stopped short: each scan is repeated at its own time, once, to its own TAIL (R131). -/
def execFordRescan (m w : Nat) (s : State) : Host.Outcome State Fault Refusal :=
  run State.core s fun s =>
    let x := s.window m w
    match x.rescans with
    | (t, tail) :: rest =>
      if s.fnOpen m && x.mapped && t + 20000 ≤ s.now then
        ((s.updWindow m w fun x => { x with rescans := rest }).scan m w tail).advance
      else s
    | [] => s

/-- FORD_POLL: at a multiple of 20,000 ns, or at the stamp next to it where a slew has passed over it, every POLL window is
scanned, once; none in QSC or STBY (R132). -/
def execFordPoll (s : State) : Host.Outcome State Fault Refusal :=
  run State.core s fun s =>
    if s.power.chip == .active && s.now % 20000 ≤ 1 && s.now / 20000 != s.hif.polled then
      let s := { s with hif := { s.hif with polled := s.now / 20000 } }
      ((List.range 33).foldl (fun s f => (List.range 64).foldl (fun s w =>
        let x := s.window f w
        if s.fnOpen f && x.mapped && x.poll then s.takeSlots f w x.count else s) s) s).advance
    else s

/-! ### Host writes (R119, R124, R129) -/

/-- A host write to a flag, checked under R129; one past the last flag is dropped and counted (R124). -/
def State.flagWrite (s : State) (f w i v : Nat) : State :=
  let x := s.window f w
  if x.count ≤ i then s.violate f w
  else if !(x.slot i).accepts v then s.slotViolation f w i
  else if bits v 0 2 = (x.slot i).owner then s
  else s.setOwner f w i (bits v 0 2)

/-- FORD_FLAG_WRITE of the 32-bit word at byte `byte` of a window's flag area. -/
def execFordFlagWrite (m w byte : Nat) (v : BitVec 32) (ide : Bool) (s : State) : Host.Outcome State Fault Refusal :=
  barRun State.core m ide false s fun s =>
    let x := s.window m w
    if s.fnOpen m && x.mapped && byte < x.flagBytes && byte % 4 == 0 then s.flagWrite m w (byte / 4) v.toNat else s

/-- The window of a function that holds a BAR2 offset. -/
def State.windowAt (s : State) (f off : Nat) : Option Nat :=
  (List.range 64).find? fun w => let x := s.window f w; x.mapped && x.off ≤ off && off < x.off + x.len

/-- Bytes of a host write at a local address, by the function's master; a poisoned TLP poisons the granule (R251). -/
def State.hostStore (s : State) (p a : Nat) (l : List Byte) (ep : Bool) : State :=
  match access s p a with
  | .ok k =>
    let s := s.store a l
    if ep then { s with mem := s.mem.mark k true } else s
  | _ => s

/-- The Plain in RET whose store holds a local address. -/
def State.retPlainOf (s : State) (a : Nat) : Option Nat :=
  (localKey s a).bind fun k => if k < affineBase && (s.plain (keyHalf k / 2)).state == .ret then some (keyHalf k / 2) else none

/-- One granule's piece of a host write into a slot: dropped, and counted, while the device owns the slot (log entry 155), or where
the memory does not take it. One into the store of a Plain in RET waits at its Saddle for the exit that it starts (R61). -/
def State.dataWrite (s : State) (f w rel : Nat) (l : List Byte) (ep : Bool) : State :=
  let x := s.window f w
  let i := (rel - x.flagBytes) / x.slotSize
  let a := x.base + rel
  if (x.slot i).owner = 2 then s.slotViolation f w i
  else match s.retPlainOf a with
    | some p => (s.wakePlain p).updPlain p fun y =>
        { y with heldWrites := y.heldWrites ++ [{ master := fnOwner f, addr := a, data := l, ep := ep }] }
    | none => s.hostStore (fnOwner f) a l ep

/-- What a read of BAR2 returns, and whether the completion carries the EP bit: the bytes behind the windows, flags as they stand,
all ones where there is no window (R119, R129, R251). No command reads BAR2 through a window (log entry 45). -/
def State.bar2Read (s : State) (f off n : Nat) : List Byte × Bool :=
  let at' (i : Nat) : Byte × Bool :=
    match s.windowAt f (off + i) with
    | none => (0xFF, false)
    | some w =>
      let x := s.window f w
      let rel := off + i - x.off
      if rel < x.flagBytes then (if rel / 4 < x.count then (leBytes 4 (x.slot (rel / 4)).flag).getD (rel % 4) 0 else 0, false)
      else (s.rd8 (x.base + rel), (localKey s (x.base + rel)).any s.mem.poisoned)
  let l := (List.range n).map at'
  (l.map (·.1), l.any (·.2))

/-- A host write of bytes at a BAR2 offset, granule by granule; what lies in a flag area is judged as the merged
flag (log entry 45). -/
def State.hostWrite (s : State) (f off : Nat) (l : List Byte) (ep : Bool) : State :=
  let gs := granules off l.length
  let put (s : State) (g : Nat) : State :=
    let a := max g off
    let e := min (g + 64) (off + l.length)
    let part := (l.drop (a - off)).take (e - a)
    match s.windowAt f a with
    | none => s
    | some w =>
      let x := s.window f w
      let rel := a - x.off
      if x.flagBytes ≤ rel then s.dataWrite f w rel part ep
      else
        (List.range ((rel % 4 + part.length + 3) / 4)).foldl (fun s k =>
          let i := rel / 4 + k
          let old := leBytes 4 (((s.window f w).slot i).flag)
          let new := old.mapIdx fun j b => if rel ≤ 4 * i + j && 4 * i + j < rel + part.length then part.getD (4 * i + j - rel) b else b
          s.flagWrite f w i (leNat new)) s
  let s := gs.foldl put s
  if gs.any (fun g => (s.windowAt f (max g off)).isNone) then s.updFn f fun x => { x with unmappedWr := sat 32 (x.unmappedWr + 1) }
  else s

/-- FORD_DATA_WRITE: a posted write into BAR2. -/
def execFordDataWrite (m off : Nat) (data : List Byte) (ep ide : Bool) (s : State) : Host.Outcome State Fault Refusal :=
  barRun State.core m ide false s fun s => if m < 33 && (s.fn m).enabled then s.hostWrite m off data ep else s

/-- BAR2_UNMAPPED_ACCESS: a read returns all ones, a write is dropped, either is counted. -/
def execBar2UnmappedAccess (m off : Nat) (write ide : Bool) (s : State) : Host.Outcome State Fault Refusal :=
  barRun State.core m ide (!write) s fun s =>
    if !(s.fn m).enabled || (s.windowAt m off).isSome then s
    else if write then s.updFn m fun x => { x with unmappedWr := sat 32 (x.unmappedWr + 1) }
    else { s.updFn m (fun x => { x with unmappedRd := sat 32 (x.unmappedRd + 1) }) with readData := 2 ^ 64 - 1 }

/-! ### Mapping (R125) -/

/-- The window a FORD_MAP asks for. -/
def windowOf (e : Block) : Window :=
  let p := eParam e
  { mapped := true, poll := p 1 0 1 == 1, bind := p 1 2 2, mirrorData := p 1 4 1 == 1, count := p 2 0 16, shift := p 4 0 5,
    vector := p 5 0 6, irqEn := p 5 6 1 == 1, off := p 8 0 64, base := p 16 0 40, mirror := p 24 0 64, target := p 32 0 32,
    slots := List.replicate (p 2 0 16) {} }

/-- Whether a binding's handle is good: an EVENT, or a media context of the partition. -/
def State.bindOk (s : State) (m : Nat) (x : Window) : Bool :=
  match x.bind with
  | 0 => m != 0 && (s.syncOf (mbPart m) x.target).any (·.typ == 3)
  | 1 => m != 0 && ((s.encOf (mbPart m) x.target).isSome || (s.decOf (mbPart m) x.target).isSome)
  | _ => true

def chkFordMap (m : Nat) (s : State) (e : Block) (_ : Taken) : Option (Nat × Nat) :=
  let x := windowOf e
  if !s.bindOk m x then some (ST.badHandle, 0)
  else if (s.window m (eParam e 0 0 6)).mapped then some (ST.fordInUse, 0)
  else if 2 ^ (s.fn m).bar2 < x.off + x.len ||
      (s.fn m).windows.any (fun y => y.mapped && x.off < y.off + y.len && y.off < x.off + x.len) then some (ST.fordOverlap, 0)
  else if !rangeOwned s (fnOwner m) x.base x.len then some (ST.addrUnmapped, 0)
  else none

def effFordMap (s : State) (r : Req) (t : Taken) : State :=
  let x := windowOf t.entry
  (s.updWindow r.m (eParam t.entry 0 0 6) fun _ => x).complete r ST.ok x.len

/-- FORD_MAP. -/
def execFordMap (m : Nat) (c : Cmd) (s : State) : Host.Outcome State Fault Refusal :=
  run State.core s fun s => lolin 0x0801 m c s (chkFordMap m) effFordMap

def chkFordUnmap (m : Nat) (s : State) (e : Block) (_ : Taken) : Option (Nat × Nat) :=
  let x := s.window m (hObj (eTarget e))
  if x.unmapping.isSome || x.shrunk || (eParam e 0 0 1 = 0 && !x.deviceSlots.isEmpty) then some (ST.fordBusy, 0) else none

def effFordUnmap (s : State) (r : Req) (t : Taken) : State :=
  let w := hObj (eTarget t.entry)
  if eParam t.entry 0 0 1 = 0 then (s.unmap r.m w).complete r ST.ok
  else
    let s := s.poisonOwned r.m w
    ((s.updWindow r.m w fun y => { y with unmapping := some r }).wait r).drainWindows

/-- FORD_UNMAP. -/
def execFordUnmap (m : Nat) (c : Cmd) (s : State) : Host.Outcome State Fault Refusal :=
  run State.core s fun s => lolin 0x0802 m c s (chkFordUnmap m) effFordUnmap

end Sys2Proof.Machine
end

