-- ==== Sys2Proof/Machine/HostRows.lean ====
section
/-! DEFINITION. The PCIe port's functions (R112 to R118), MSI-X unmasking (R121), IDE and TDISP (R122, R123, R417), PTM (R456) and configuration requests (R81). -/
namespace Sys2Proof.Machine
open Sys2Proof

/-- VF_FLR: the VF's configuration and its MSI-X registers are lost, its tags move to a new epoch (Table 4-7, R233), and its
partition takes a PART reset; READY reads 0 until it is over. Under TDISP the function's IDE keys go, and its TDI is
CONFIG_UNLOCKED after the reset (Table 21-5). A VF whose partition does not exist has no reset to wait for: its mailbox is cleared at
once (DEDUCED, log entry 157). -/
def execVfFlr (n : Nat) (s : State) : Host.Outcome State Fault Refusal :=
  run State.core s fun s =>
    if n = 0 || !(s.fn n).enabled then s
    else
      let locked := (s.fn n).tdi != 0
      let s := if locked then s.updFn n (fun x => { x with ideKeys := [], ideUp := false }) else s
      let s := (s.resetMaster 3 n).updFn n fun x => { x with vecs := (Fn.atReset n).vecs, dstate := 0, urLogged := false }
      if (s.part (n - 1)).exist then
        ((s.updMb n fun b => { b with ready := false }).updPart (n - 1) fun p => { p with stopTdi := p.stopTdi || locked }).partReset (n - 1)
      else (s.updMb n fun _ => {}).updFn n fun x => { x.lose n with tdi := 0 }

/-- VF_ENABLE_SET: VFs 1 to NumVFs, and no VF above 7 without ARI (R113). -/
def execVfEnableSet (numVfs : Nat) (ari : Bool) (s : State) : Host.Outcome State Fault Refusal :=
  run State.core s fun s =>
    if 32 < numVfs || s.hif.numVfs != 0 then s
    else
      { s with
        hif := { s.hif with numVfs := numVfs, ari := ari },
        fns := s.fns.mapIdx fun i (x : Fn) =>
          (if i != 0 && i ≤ (if ari then numVfs else min numVfs 7) then { x with enabled := true } else x) }

/-- VF_ENABLE_CLEAR: a PART reset of every partition whose VF was enabled. -/
def execVfEnableClear (s : State) : Host.Outcome State Fault Refusal :=
  run State.core s fun s =>
    let s := (List.range 32).foldl (fun s p => if (s.fn (p + 1)).enabled then s.partReset p else s) s
    { s with
      hif := { s.hif with numVfs := 0 },
      fns := s.fns.mapIdx fun i (x : Fn) => (if i = 0 then x else { x with enabled := false }) }

/-- BAR2_RESIZE of the PF, or of all VFs alike (Table 6-3): windows that no longer fit are unmapped as by a forced
FORD_UNMAP, with EV_FORD_UNMAPPED. -/
def execBar2Resize (m shift : Nat) (s : State) : Host.Outcome State Fault Refusal :=
  run State.core s fun s =>
    if shift < 30 || 38 < shift || 32 < m then s
    else
      (if m = 0 then [0] else (List.range 32).map (· + 1)).foldl (fun s f =>
        let s := s.updFn f fun x => { x with bar2 := shift }
        (List.range 64).foldl (fun s w =>
          let x := s.window f w
          if x.mapped && 2 ^ shift < x.off + x.len then
            (s.forceUnmap f w).emit [f] EV.fordUnmapped 2 (hWindow w) (pay [(0, w)])
          else s) s) s

/-- An MSI-X vector unmasked: one message if its pending bit is set. -/
def Vec.unmask (v : Vec) : Vec :=
  if v.pend then { v with masked := false, pend := false, sent := v.sent + 1 } else { v with masked := false }

/-- MSIX_UNMASK. -/
def execMsixUnmask (m vector : Nat) (ide : Bool) (s : State) : Host.Outcome State Fault Refusal :=
  barRun State.core m ide false s fun s => s.updFn m fun x => { x with vecs := updAt x.vecs vector Vec.unmask }

/-! ### IDE and TDISP -/

/-- Solram serves requests: booted, and not in ERROR (R408). -/
def State.solram (s : State) : Bool := s.core && s.sec.selfTest && !s.sec.error

/-- IDE_KM_KEY_PROG: a 256-bit key more, of the two sets that a stream can hold (R122); a third takes the older one's place. -/
def execIdeKmKeyProg (f : Nat) (key : BitVec 256) (s : State) : Host.Outcome State Fault Refusal :=
  run State.solram s fun s => s.updFn f fun x => { x with ideKeys := (key :: x.ideKeys).take 2 }

/-- IDE_KM_KEY_SET_GO: the stream is established on its programmed keys. -/
def execIdeKmKeySetGo (f : Nat) (s : State) : Host.Outcome State Fault Refusal :=
  run State.solram s fun s => s.updFn f fun x => if x.ideKeys.isEmpty then x else { x with ideUp := true }

/-- IDE_KM_KEY_SET_STOP: the keys are zeroised and the stream is down. -/
def execIdeKmKeySetStop (f : Nat) (s : State) : Host.Outcome State Fault Refusal :=
  run State.solram s fun s => s.updFn f fun x => { x with ideKeys := [], ideUp := false }

/-- LOCK_INTERFACE: refused (`readData` 1, a TDISP error) unless the partition is confidential and the IDE stream
established. -/
def execLockInterface (n : Nat) (s : State) : Host.Outcome State Fault Refusal :=
  run State.solram s fun s =>
    let x := s.fn n
    if 1 ≤ n && n ≤ 32 && x.tdi = 0 && (s.part (n - 1)).exist && (s.part (n - 1)).cfg.confidential && x.ideUp then
      { s.updFn n (fun x => { x with tdi := 1 }) with readData := 0 }
    else { s with readData := 1 }

/-- START_INTERFACE: CONFIG_LOCKED to RUN. -/
def execStartInterface (n : Nat) (s : State) : Host.Outcome State Fault Refusal :=
  run State.solram s fun s =>
    if (s.fn n).tdi = 1 then { s.updFn n (fun x => { x with tdi := 2 }) with readData := 0 } else { s with readData := 1 }

/-- STOP_INTERFACE: a PART reset; the TDI is CONFIG_UNLOCKED after READY. -/
def execStopInterface (n : Nat) (s : State) : Host.Outcome State Fault Refusal :=
  run State.solram s fun s =>
    if n = 0 || 32 < n then { s with readData := 1 }
    else
      let s := { s with readData := 0 }
      if (s.part (n - 1)).exist then
        ((s.updFn n fun x => { x with stopping := true }).updPart (n - 1) fun p => { p with stopTdi := true }).partReset (n - 1)
      else s.updFn n fun x => { x with tdi := 0 }

/-! ### PTM and configuration space -/

/-- PTM_DIALOGUE: both times of one dialogue recorded; device time is never adjusted (Table 6-1). -/
def execPtmDialogue (master : Nat) (s : State) : Host.Outcome State Fault Refusal :=
  run State.core s fun s =>
    if s.hif.up then
      { s with hif := { s.hif with
          ptmMaster := master % 2 ^ 64, ptmDevice := s.now, ptmCount := (s.hif.ptmCount + 1) % 65536, ptmValid := true } }
    else s

/-- BAR0 is valid: the CP has booted once (R81, Table 5-1). -/
def State.bar0Valid (s : State) : Bool := s.boot.stage != .rails && s.boot.stage != .secureBoot

/-- Bytes of a BAR pair, by its first register: BAR0/1 4 MiB on the PF and 64 KiB on a VF, BAR2/3 resizable, BAR4/5 not
implemented (Table 6-3). -/
def Fn.barBytes (x : Fn) (vf : Bool) (i : Nat) : Nat :=
  match i / 2 with
  | 0 => if vf then 0x10000 else 0x400000
  | 1 => 2 ^ x.bar2
  | _ => 0

/-- A 32-bit BAR register: the low one with its kind, 64-bit non-prefetchable or 64-bit prefetchable memory, the high one. -/
def barWord (addr bytes i : Nat) : Nat :=
  if bytes = 0 then 0 else if i % 2 = 1 then wordOf addr true else wordOf addr false + (if i / 2 = 0 then 0x4 else 0xC)

/-- A BAR pair's address after a write of one of its registers: the bits below its size stay zero. -/
def barPut (addr bytes i w : Nat) : Nat :=
  if bytes = 0 then addr else (if i % 2 = 1 then setHi addr w else setLo addr w) / bytes * bytes

/-- The BAR addresses of the PF, or of all VFs together, with one register written. -/
def barsPut (l : List Nat) (x : Fn) (vf : Bool) (i w : Nat) : List Nat := updAt l (i / 2) fun a => barPut a (x.barBytes vf i) i w

/-- What a field of configuration space reads (Table 6-1, Table 6-2, Table 6-3, R111). A VF's own BAR registers read zero: its BARs
are in the PF's SR-IOV capability (log entry 153). -/
def State.cfgRead (s : State) (m : Nat) (r : CfgReg) : Nat :=
  let x := s.fn m
  let pf := m == 0
  match r with
  | .vendorId => if pf then 0x1FC7 else 0xFFFF
  | .deviceId => if pf then 0x0760 else 0xFFFF
  | .revisionId => 0x01
  | .classCode => 0x120000
  | .subsystemVendorId => 0x1FC7
  | .subsystemId => 0x0001
  | .totalVfs => if pf then 32 else 0
  | .firstVfOffset | .vfStride => b2n pf
  | .numVfs => if pf then s.hif.numVfs else 0
  | .vfDeviceId => if pf then 0x0761 else 0
  | .ariHierarchy => b2n (pf && s.hif.ari)
  | .bar i => if pf && i < 6 then barWord (s.hif.bars.getD (i / 2) 0) (x.barBytes false i) i else 0
  | .vfBar i => if pf && i < 6 then barWord (s.hif.vfBars.getD (i / 2) 0) ((s.fn 1).barBytes true i) i else 0
  | .barSize i => if i < 6 then wordOf (x.barBytes (!pf) i - 1) false else 0
  | .barResizable i => b2n (i / 2 == 1)
  | .flrCapable => b2n (!pf)
  | .powerState => x.dstate
  | .powerStates => 2 ^ 0 + 2 ^ 3
  | .aspm => 2
  | .ltr | .aer | .acs => 1
  | .aerStatus => b2n x.urLogged * 2 ^ 20
  | .ptm | .doe => b2n pf
  | .maxPayload => 512
  | .maxReadRequest => 4096
  | .completionBoundary => 64
  | .tagBits => if s.hif.flit then 14 else 10
  | .outstanding => 1024
  | .ats | .pri | .atomicOps | .tph => 0

/-- A write to configuration space: BAR addresses, D0 or D3hot (D1 and D2 are not supported, R111), and AER's status, which a one
clears. SR-IOV control and the BAR sizes have rows of their own; the rest is read-only. -/
def State.cfgWrite (s : State) (m : Nat) (r : CfgReg) (w : Nat) : State :=
  match r with
  | .bar i => if m = 0 then { s with hif := { s.hif with bars := barsPut s.hif.bars (s.fn 0) false i w } } else s
  | .vfBar i => if m = 0 then { s with hif := { s.hif with vfBars := barsPut s.hif.vfBars (s.fn 1) true i w } } else s
  | .powerState => if bits w 0 2 = 0 || bits w 0 2 = 3 then s.updFn m fun x => { x with dstate := bits w 0 2 } else s
  | .aerStatus => s.updFn m fun x => { x with urLogged := x.urLogged && !bit w 20 }
  | _ => s

/-- CONFIGURATION_REQUEST, a read or a write: `readData` holds 2^32 for retry status before BAR0 is valid, 2 × 2^32 for Unsupported
Request at a VF that is not enabled, else the value read, 0 for a write (log entry 46); in STBY the keeper answers (R73). A change
that TDISP forbids moves a locked TDI to ERROR (R123). -/
def execConfigurationRequest (m : Nat) (reg : CfgReg) (write : Option (BitVec 32)) (forbidden : Bool) (s : State) :
    Host.Outcome State Fault Refusal :=
  run State.keeper s fun s =>
    if !s.hif.up then s
    else if !s.bar0Valid then { s with readData := 2 ^ 32 }
    else if !(s.fn m).enabled then { s with readData := 2 * 2 ^ 32 }
    else match write with
      | none => { s with readData := s.cfgRead m reg }
      | some w =>
        let s := { s.cfgWrite m reg w.toNat with readData := 0 }
        if forbidden then s.updFn m fun x => if x.tdi = 1 || x.tdi = 2 then { x with tdi := 3 } else x else s

end Sys2Proof.Machine
end

