-- ==== Sys2Proof/Machine/Mailbox.lean ====
section
/-! DEFINITION. The mailbox engine's rows (R138 to R148, R453, R455), the control processor (R156 to R159), and the keeper of STBY with the exit from it (R72, R73). -/
namespace Sys2Proof.Machine
open Sys2Proof

/-- A write to the mailbox registers of a function reaches them: its VF is enabled, and no reset holds it (R117, R118). -/
def State.mbxOpen (s : State) (m : Nat) : Bool := s.bar0Valid && s.fnOpen m

/-- EV_MBX_VIOLATION on the mailbox's own ring (R453). -/
def State.mbxViolation (s : State) (m : Nat) : State := s.emit [m] EV.mbxViolation 2

/-- A write of MBX_SQ_TAIL, TAIL in bits [11:0] (Table 24-3). A reset's READY, which ends the ignoring of doorbells (R118), is
taken as that of the PART reset: one that comes after it and before ENABLE rises is latched, and ENABLE keeps the tail (DESIGN
CHOICE, log entry 137). -/
def State.sqTail (s : State) (m v : Nat) : State :=
  let v := bits v 0 12
  if !s.mbxOpen m then s
  else if ringSize (s.mb m).sqSize ≤ v then s.mbxViolation m
  else (s.updMb m fun b => { b with sqTail := v }).doorbellWake

/-- BAR0 offset of MBX_SQ_TAIL, and of Ford doorbell `w`, of a function (Table 6-4). -/
def tailOff (m : Nat) : Nat := if m = 0 then 0x1001C else 0x101C

/-- MBX_SQ_TAIL_WRITE: latched, through a CPR too; at or above the ring's entry count it is ignored. In STBY, and on the way
there, the keeper latches it (R73). -/
def execMbxSqTailWrite (m : Nat) (v : BitVec 32) (ide : Bool) (s : State) : Host.Outcome State Fault Refusal :=
  barRun State.keeper m ide false s fun s =>
    if s.core then s.sqTail m v.toNat else if s.suspended then s.latchDoorbell m (tailOff m) v.toNat else s

/-- ENTRY_TAKE: the next POSTED entry, whose 64 bytes the row brings from host memory. One that fails steps 2 to 5 of
R151 is answered when its turn comes; one that passes them stays TAKEN until its own row gives it its effect. -/
def execEntryTake (m : Nat) (e : Block) (s : State) : Host.Outcome State Fault Refusal :=
  run State.core s fun s => (s.takeNext m e).1.refuseDue m

/-- ENABLE rises: the sizes are checked; SQ_HEAD, the tails and the LOST count are 0. The consumption indices start with the
tails (log entry 47). -/
def State.mbxEnable (s : State) (m : Nat) : State :=
  let b := s.mb m
  if !s.mbxOpen m || b.enable then s
  else
    let ok (n : Nat) : Bool := 4 ≤ n && n ≤ 12
    if ok b.sqSize && ok b.cqSize && ok b.eqSize && b.sqSize ≤ b.cqSize then
      (s.updMb m fun b => { b with
        enable := true, ready := true, sqHead := 0, cqHead := 0, eqHead := 0, cq := [], cqCount := 0, eq := [], eqCount := 0,
        lost := 0 }).flush m |>.destroyDue
    else s.updMb m fun b => { b with enable := true, ready := false, cfgErr := true, lost := 0 }

/-- MBX_ENABLE. -/
def execMbxEnable (m : Nat) (ide : Bool) (s : State) : Host.Outcome State Fault Refusal :=
  barRun State.core m ide false s fun s => s.mbxEnable m

/-- ENABLE falls: READY follows once what was taken is complete. -/
def State.mbxDisable (s : State) (m : Nat) : State :=
  if s.mbxOpen m then s.updMb m fun b => { b with enable := false, cfgErr := false }.settle else s

/-- MBX_DISABLE. -/
def execMbxDisable (m : Nat) (ide : Bool) (s : State) : Host.Outcome State Fault Refusal :=
  barRun State.core m ide false s fun s => s.mbxDisable m

/-- A write of MBX_CQ_HEAD, HEAD in bits [11:0]: completions consumed, their slots free. -/
def State.cqHeadWrite (s : State) (m v : Nat) : State :=
  let n := ringSize (s.mb m).cqSize
  let v := bits v 0 12
  if !s.mbxOpen m then s
  else if n ≤ v then s.mbxViolation m
  else s.updMb m fun b => { b with cq := b.cq.drop ((v + n - b.cqHead) % n), cqHead := v }

/-- MBX_CQ_HEAD_WRITE. -/
def execMbxCqHeadWrite (m : Nat) (v : BitVec 32) (ide : Bool) (s : State) : Host.Outcome State Fault Refusal :=
  barRun State.core m ide false s fun s => s.cqHeadWrite m v.toNat

/-- A write of MBX_EQ_HEAD: events consumed; EV_EVENTS_LOST and held events follow. -/
def State.eqHeadWrite (s : State) (m v : Nat) : State :=
  let n := ringSize (s.mb m).eqSize
  let v := bits v 0 12
  if !s.mbxOpen m then s
  else if n ≤ v then s.mbxViolation m
  else (s.updMb m fun b => { b with eq := b.eq.drop ((v + n - b.eqHead) % n), eqHead := v }).flush m |>.destroyDue

/-- MBX_EQ_HEAD_WRITE. -/
def execMbxEqHeadWrite (m : Nat) (v : BitVec 32) (ide : Bool) (s : State) : Host.Outcome State Fault Refusal :=
  barRun State.core m ide false s fun s => s.eqHeadWrite m v.toNat

/-- The timer of a coalesced vector has run out. -/
def Coal.due (c : Coal) (now : Nat) : Bool := 0 < c.since && 0 < c.time && c.first + c.time * 1000 ≤ now

/-- EVT_COAL_TIMER: TIME µs after the first record that signals. -/
def execEvtCoalTimer (m vector : Nat) (s : State) : Host.Outcome State Fault Refusal :=
  run State.core s fun s =>
    s.updFn m fun x =>
      if vector = 0 && x.coalCq.due s.now then { x with coalCq := { x.coalCq with since := 0 } }.fire 0
      else if vector = 1 && x.coalEq.due s.now then { x with coalEq := { x.coalEq with since := 0 } }.fire 1
      else x

/-! ### The control processor (R156 to R159) -/

/-- CP_HEARTBEAT_TICK, every 1 ms while the CP runs, one of its cores at least. -/
def execCpHeartbeatTick (s : State) : Host.Outcome State Fault Refusal :=
  run State.core s fun s =>
    if s.cpUp && s.halts != 15 && s.cp.lastBeat + 1000000 ≤ s.now then
      { s with cp := { s.cp with beat := (s.cp.beat + 1) % 2 ^ 32, lastBeat := s.now } }
    else s

/-- CP_EXCEPTION. -/
def execCpException (s : State) : Host.Outcome State Fault Refusal := run State.core s fun s => if s.cpUp then s.cpr else s

/-- CP_WATCHDOG_EXPIRY: no heartbeat for 500 ms; suspended while any HALT bit is 1 (R458). -/
def execCpWatchdogExpiry (s : State) : Host.Outcome State Fault Refusal :=
  run State.core s fun s => if s.cpUp && s.halts == 0 && s.cp.lastBeat + 500000000 ≤ s.now then s.cpr else s

/-- CP_RESTART_DONE: the CP runs again. What the journal holds as COMMITTED is completed, what it holds as WAITING goes on with
its hardware, and what it holds as TAKEN is executed at its own row, or answered as its turn has come (R158). -/
def execCpRestartDone (s : State) : Host.Outcome State Fault Refusal :=
  run State.core s fun s =>
    if s.bar0Valid && !s.cp.up && !s.cp.failed then
      let s := { s with cp := { s.cp with up := true, lastBeat := s.now } }
      ((List.range 33).foldl State.refuseDue s.deliverDone).advance
    else s

/-! ### STBY (R72, R73) -/

/-- What a BAR0 offset of a function names among the doorbells: the submission tail, or a Ford doorbell. -/
def doorbellAt (m off : Nat) : Option (Option Nat) :=
  let ford := fordOff m 0
  if off = tailOff m then some none
  else if ford ≤ off && off < ford + 512 && (off - ford) % 8 == 0 then some (some ((off - ford) / 8))
  else none

/-- KEEPER_BAR0_ACCESS: a doorbell is latched and is a wake source, and so is a write of 1 to PWR_WAKE; any other write
is dropped, and a read returns all ones. -/
def execKeeperBar0Access (m off : Nat) (write : Option (BitVec 32)) (s : State) : Host.Outcome State Fault Refusal :=
  run State.keeper s fun s =>
    if !s.suspended || !(s.fn m).enabled then s
    else match write with
      | none => { s with readData := 2 ^ 32 - 1 }
      | some v =>
        if (doorbellAt m off).isSome then s.latchDoorbell m off v.toNat
        else if m = 0 && off = 0x60008 && bit v.toNat 0 then s.wake
        else s

/-- A latched doorbell acted on. -/
def State.replay (s : State) (m : Nat) (d : Nat × Nat) : State :=
  match doorbellAt m d.1 with
  | some none => s.sqTail m d.2
  | some (some w) => s.fordDoorbell m w (bits d.2 0 12)
  | none => s

/-- STBY_RESTORE_DONE: Solram has checked the saved CP image against its hash (R72), the suspend contents are back and their key is
zeroised, mailboxes accept commands, Pass ports
stand in DETECT, EV_POWER_STATE says ACTIVE, and latched doorbells are processed. -/
def execStbyRestoreDone (s : State) : Host.Outcome State Fault Refusal :=
  run State.keeper s fun s =>
    if s.power.chip == .stby && s.power.waking && s.sup.seq == .steady && s.judged 1 && s.plains.all (·.locked) &&
        s.power.image == s.sec.cpHash then
      let latched := s.fns.map (·.latch)
      let s := { s with
        power := { s.power with chip := .active, waking := false, saved := false },
        sec := { s.sec with keys := s.sec.keys.filter (· != 33) },
        cp := { s.cp with up := !s.cp.failed, lastBeat := s.now },
        plains := s.plains.map fun (x : Plain) => (if x.state == PlainState.off then x else { x with state := .run, since := s.now, exiting := false, held := [], heldWrites := [] }),
        fns := s.fns.map fun (x : Fn) => ({ x with latch := [] } : Fn) }
      let s := s.emit [0] EV.powerState 2 0 0
      ((List.range 33).foldl (fun s m => (latched.getD m []).foldl (fun s d => s.replay m d) s) s).advance
    else s

end Sys2Proof.Machine
end

