-- ==== Sys2Proof/Machine/PartCmds.lean ====
section
/-! DEFINITION. The PART and ACCT commands (R165, R210 to R215, Table 8-3, Table 8-12), and Plains that come to RUN for them. -/
namespace Sys2Proof.Machine
open Sys2Proof

/-! ### PART_CREATE -/

/-- The partition entry of a PART_CREATE (Table 5-10). -/
def cfgOf (e : Block) : PartCfg :=
  let p := eParam e
  { hpMask := p 0 0 32, confidential := p 4 0 1 == 1, retainKeys := p 4 1 1 == 1, scrubOnReset := p 4 2 1 == 1,
    acctOverride := p 4 3 1 == 1, acctCount := p 4 4 1 == 1, mediaShare := p 5 0 8,
    quota := [p 8 0 8, p 9 0 8, p 10 0 8, p 11 0 8] }

/-- Sum of a share over the partitions that exist. -/
def State.shareSum (s : State) (f : PartCfg → Nat) : Nat := (s.parts.map fun p => if p.exist then f p.cfg else 0).sum

/-- A confidential partition is refused at the INVASIVE level, in RMA and in RETIRED (Table 21-9). -/
def chkPartCreate (s : State) (e : Block) (_ : Taken) : Option (Nat × Nat) :=
  let c := cfgOf e
  if (s.part (eParam e 32 0 5)).exist then some (ST.partExists, 0)
  else if (List.range 32).any (fun h => bit c.hpMask h && ((halfOwner s h).isSome || !bit s.boot.hpOk.toNat h)) then
    some (ST.hpUnavailable, 0)
  else if 100 < s.shareSum (·.mediaShare) + c.mediaShare ||
      (List.range 4).any (fun k => 100 < s.shareSum (·.quota.getD k 0) + c.quota.getD k 0) then some (ST.quotaExceeded, 0)
  else if c.confidential && (s.sec.level == 2 || 3 ≤ s.sec.lifecycle) then some (ST.secDenied, 0)
  else none

/-- The Plains of a partition. -/
def State.plainsOwned (s : State) (p : Nat) : List Nat := ((s.hpsOf p).map (· / 2)).dedup

/-- PART_CREATE completes once every Plain of the partition is in RUN; its stores are zero since its creation. -/
def State.createReady (s : State) (p : Nat) : State :=
  match (s.part p).createReq with
  | some r =>
    if (s.plainsOwned p).all fun q => (s.plain q).state == .run then
      (s.updPart p fun x => { x with createReq := none }).complete r ST.ok (hPart p)
    else s
  | none => s

def effPartCreate (s : State) (r : Req) (t : Taken) : State :=
  let p := eParam t.entry 32 0 5
  let s := s.makePart p (cfgOf t.entry)
  let s := (s.zeroHalves (s.hpsOf p)).updPart p fun x => { x with createReq := some r }
  let s := (s.plainsOwned p).foldl (fun s q => s.wakePlain q) s
  (s.wait r).createReady p

/-- PART_CREATE. -/
def execPartCreate (m : Nat) (c : Cmd) (s : State) : Host.Outcome State Fault Refusal :=
  run State.core s fun s => lolin 0x0301 m c s chkPartCreate effPartCreate

/-- PLAIN_POWER_UP_DONE: a Plain taken into a partition leaves OFF with its store and registers zero (R62). -/
def execPlainPowerUpDone (plain : Nat) (s : State) : Host.Outcome State Fault Refusal :=
  run State.core s fun s =>
    if (s.plain plain).state == .off && s.plainOwned plain then
      let s := (s.zeroHalves [2 * plain, 2 * plain + 1]).updPlain plain fun x => { x with state := .run, since := s.now }
      ([2 * plain, 2 * plain + 1].filterMap (halfOwner s)).foldl State.createReady s
    else s

/-! ### PART_RESET, PART_DESTROY, PART_QUERY -/

/-- A locked TDI moves to ERROR before its partition is reset or destroyed (R123). -/
def State.tdiError (s : State) (f : Nat) : State :=
  s.updFn f fun x => if x.tdi = 1 || x.tdi = 2 then { x with tdi := 3 } else x

def effPartReset (s : State) (r : Req) (t : Taken) : State :=
  let p := hObj (eTarget t.entry)
  let s := ((s.tdiError (p + 1)).wait r).updPart p fun x => { x with resetReqs := x.resetReqs ++ [r] }
  s.partReset p

/-- PART_RESET; one that comes during a reset completes with it. -/
def execPartReset (m : Nat) (c : Cmd) (s : State) : Host.Outcome State Fault Refusal :=
  run State.core s fun s => lolin 0x0303 m c s noCheck effPartReset

/-- A partition destroyed for some commands, none for one that the device destroys itself (R413, R422). A PART_CREATE that
still waits is absorbed by the destruction. -/
def State.destroyPart (s : State) (p : Nat) (l : List Req) : State :=
  let s := s.tdiError (p + 1)
  let s := match (s.part p).createReq with
    | some q => (s.updPart p fun x => { x with createReq := none }).complete q ST.abortedByReset
    | none => s
  let idle : Bool := (s.part p).step = 0
  let s := s.updPart p fun x => { x with
    destroyReqs := x.destroyReqs ++ l,
    state := if idle then .destroying else x.state,
    destroyAfter := x.destroyAfter || (!idle && x.state != .destroying) }
  s.partReset p

def effPartDestroy (s : State) (r : Req) (t : Taken) : State := (s.wait r).destroyPart (hObj (eTarget t.entry)) [r]

/-- PART_DESTROY; one that follows a PART_RESET under way destroys the partition after it. -/
def execPartDestroy (m : Nat) (c : Cmd) (s : State) : Host.Outcome State Fault Refusal :=
  run State.core s fun s => lolin 0x0302 m c s noCheck effPartDestroy

def PartState.code : PartState → Nat
  | .ready => 0
  | .resetting => 1
  | .destroying => 2

def effPartQuery (s : State) (r : Req) (t : Taken) : State :=
  let p := hObj (eTarget t.entry)
  let x := s.part p
  let tdi := (s.fn (p + 1)).tdi
  s.complete r ST.ok (x.cfg.hpMask + x.state.code * 2 ^ 32 + b2n x.cfg.confidential * 2 ^ 34 + b2n (tdi == 1 || tdi == 2) * 2 ^ 35 +
    (s.streams.filter fun y => y.owner == p && y.state == .opened).length * 2 ^ 36)

/-- PART_QUERY. -/
def execPartQuery (m : Nat) (c : Cmd) (s : State) : Host.Outcome State Fault Refusal :=
  run State.core s fun s => lolin 0x0304 m c s noCheck effPartQuery

/-! ### ACCT (R210, R211) -/

/-- The partition whose mode an ACCT_READ meets. -/
def acctPart (m : Nat) (e : Block) : Nat := if m = 0 then hObj (eTarget e) else mbPart m

def chkAcctRead (m : Nat) (s : State) (e : Block) (_ : Taken) : Option (Nat × Nat) :=
  let k := eParam e 0 0 8
  if m != 0 && (closingCheck s m e).isSome then closingCheck s m e
  else if 3 ≤ k && k ≤ 7 && !s.full (acctPart m e) then some (ST.acctMode, 0) else none

def effAcctRead (s : State) (r : Req) (t : Taken) : State :=
  let k := eParam t.entry 0 0 8
  let v := match (if r.m = 0 then none else s.streamOf (mbPart r.m) (eTarget t.entry)) with
    | some x => x.counters.getD k 0
    | none => s.partTotal (acctPart r.m t.entry) k
  s.complete r ST.ok v

/-- ACCT_READ; held while the partition it targets resets. -/
def execAcctRead (m : Nat) (c : Cmd) (s : State) : Host.Outcome State Fault Refusal :=
  run State.core s fun s => if s.heldAdmin m c then s.present ⟨m, c.reqId⟩ (entryOf c 0x0B01) else lolin 0x0B01 m c s (chkAcctRead m) effAcctRead

/-- FULL is refused for a confidential partition, and any change for one whose TDI is locked (R123). -/
def chkAcctModeSet (s : State) (e : Block) (_ : Taken) : Option (Nat × Nat) :=
  let p := hObj (eTarget e)
  let tdi := (s.fn (p + 1)).tdi
  if ((s.part p).cfg.confidential && eParam e 0 0 1 = 0) || tdi = 1 || tdi = 2 then some (ST.secDenied, 0) else none

def effAcctModeSet (s : State) (r : Req) (t : Taken) : State :=
  (s.updPart (hObj (eTarget t.entry)) fun x => { x with acctCount := eParam t.entry 0 0 1 == 1 }).complete r ST.ok

/-- ACCT_MODE_SET; held while the partition it targets resets. -/
def execAcctModeSet (m : Nat) (c : Cmd) (s : State) : Host.Outcome State Fault Refusal :=
  run State.core s fun s => if s.heldAdmin m c then s.present ⟨m, c.reqId⟩ (entryOf c 0x0B02) else lolin 0x0B02 m c s chkAcctModeSet effAcctModeSet

end Sys2Proof.Machine
end

