-- ==== Sys2Proof/Machine/StreamCmds.lean ====
section
/-! DEFINITION. STREAM_OPEN, STREAM_CANCEL, STREAM_CLOSE, STREAM_QUERY (R167, R168, R192, R193, R325) and the SYNC commands (R221 to R229, Table 8-8). -/
namespace Sys2Proof.Machine
open Sys2Proof

/-! ### STREAM_OPEN -/

/-- The pool a STREAM_OPEN names, if it is one of the partition's (log entry 48 for one that is not). -/
def State.openPool (s : State) (m : Nat) (e : Block) : Option Nat :=
  let n := eParam e 1 0 3
  if (s.pool n).exist && (s.pool n).part == mbPart m then some n else none

def chkStreamOpen (m : Nat) (s : State) (e : Block) (_ : Taken) : Option (Nat × Nat) :=
  let video := eParam e 8 0 32
  let kv := eParam e 1 3 1 == 1
  if video != 0 && (s.encOf (mbPart m) video).isNone then some (ST.badHandle, 0)
  else if kv && (s.openPool m e).isNone then some (ST.badHandle, 0)
  else if !s.streamFree.any Config.streamContexts then some (ST.busy, 0)
  else if kv && (s.openPool m e).any (fun n => (s.pool n).lost || (s.pool n).freeCount < 2 * eParam e 2 0 16) then
    some (ST.kvNoPages, 0)
  else none

def effStreamOpen (s : State) (r : Req) (t : Taken) : State :=
  let p := eParam t.entry
  let (i, h, s) := s.openStream {
    index := 0, gen := 0, owner := mbPart r.m, cls := p 0 0 2, lateOk := p 0 2 1 == 1, qdepth := p 4 0 7, video := p 8 0 32 }
  let s := match (if p 1 3 1 = 1 then s.openPool r.m t.entry else none) with
    | some n =>
      let (md, s) := s.kvDraw n (p 2 0 16) { pool := n }
      s.updStream i fun y => { y with kv := some md }
    | none => s
  s.complete r ST.ok h

/-- STREAM_OPEN. -/
def execStreamOpen (m : Nat) (c : Cmd) (s : State) : Host.Outcome State Fault Refusal :=
  run State.core s fun s => lolin 0x0401 m c s (chkStreamOpen m) effStreamOpen

/-! ### STREAM_CANCEL, STREAM_CLOSE, STREAM_QUERY -/

/-- Queued jobs that a SUBMIT_ID names. -/
def Stream.queued (x : Stream) (id : Nat) : List Job :=
  x.jobs.filter fun j => j.started.isNone && (id == 0xFFFFFFFF || j.req.id.toNat == id)

/-- Queued jobs cancelled (R167). -/
def State.cancel (s : State) (x : Stream) (id : Nat) : State :=
  (x.queued id).foldl (fun s j => s.removeJob x.index j ST.cancelled) s

def effStreamCancel (s : State) (r : Req) (t : Taken) : State :=
  match s.streamOf (mbPart r.m) (eTarget t.entry) with
  | some x =>
    let id := eParam t.entry 0 0 32
    ((s.cancel x id).complete r ST.ok (x.queued id).length).advance
  | none => s

/-- STREAM_CANCEL. -/
def execStreamCancel (m : Nat) (c : Cmd) (s : State) : Host.Outcome State Fault Refusal :=
  run State.core s fun s => lolin 0x0403 m c s (fun s e _ => closingCheck s m e) effStreamCancel

/-- A STREAM_CLOSE that meets a fault's teardown joins it: only one teardown runs, with the fault as its cause, and the command
completes after the teardown event (Hard corners of chapter 10). Every other state but OPEN refuses it. -/
def chkStreamClose (m : Nat) (s : State) (e : Block) (_ : Taken) : Option (Nat × Nat) :=
  match s.streamOf (mbPart m) (eTarget e) with
  | some x => if x.state == .teardown && x.close.isNone then none else closingCheck s m e
  | none => none

def effStreamClose (s : State) (r : Req) (t : Taken) : State :=
  match s.streamOf (mbPart r.m) (eTarget t.entry) with
  | some x =>
    if x.state == .teardown then (s.updStream x.index fun y => { y with close := some r, closeAt := s.now }).wait r else
    let s := (s.updStream x.index fun y => { y with state := .closing, close := some r, closeAt := s.now }).wait r
    (if eParam t.entry 0 0 1 = 0 then s.cancel x 0xFFFFFFFF else s).advance
  | none => s

/-- STREAM_CLOSE; it completes with the stream's teardown. -/
def execStreamClose (m : Nat) (c : Cmd) (s : State) : Host.Outcome State Fault Refusal :=
  run State.core s fun s => lolin 0x0404 m c s (chkStreamClose m) effStreamClose

def effStreamQuery (s : State) (r : Req) (t : Taken) : State :=
  match s.streamOf (mbPart r.m) (eTarget t.entry) with
  | some x =>
    s.complete r ST.ok ((x.jobs.filter (·.started.isNone)).length % 128 + b2n (x.jobs.any (·.started.isSome)) * 2 ^ 7 + x.cls * 2 ^ 8 +
      min (s.kvLength x) 65535 * 2 ^ 16 + x.counters.getD 0 0 % 2 ^ 32 * 2 ^ 32)
  | none => s

/-- STREAM_QUERY. -/
def execStreamQuery (m : Nat) (c : Cmd) (s : State) : Host.Outcome State Fault Refusal :=
  run State.core s fun s => lolin 0x0405 m c s (fun s e _ => closingCheck s m e) effStreamQuery

/-! ### SYNC commands -/

def chkSyncAlloc (s : State) (_ : Block) (_ : Taken) : Option (Nat × Nat) :=
  if s.sync.free.any Config.syncObjects then none else some (ST.busy, 0)

def effSyncAlloc (s : State) (r : Req) (t : Taken) : State :=
  let typ := eParam t.entry 0 0 2
  let init := eParam t.entry 4 0 32
  let (i, g, f) := s.sync.free.take Config.syncObjects
  let x : SyncObj := { index := i, gen := g, part := mbPart r.m, typ := typ, count := if typ = 1 then init else 0,
                       participants := if typ = 2 then init else 0 }
  ({ s with sync := { objs := s.sync.objs ++ [x], free := f } }).complete r ST.ok x.handle

/-- SYNC_ALLOC. -/
def execSyncAlloc (m : Nat) (c : Cmd) (s : State) : Host.Outcome State Fault Refusal :=
  run State.core s fun s => lolin 0x0701 m c s chkSyncAlloc effSyncAlloc

def chkSyncFree (m : Nat) (s : State) (e : Block) (_ : Taken) : Option (Nat × Nat) :=
  if (s.syncOf (mbPart m) (eTarget e)).any (fun x => !x.waiters.isEmpty) then some (ST.syncInUse, 0) else none

/-- Windows bound to a freed EVENT take no more slots (Hard corners of chapter 06). -/
def State.unbind (s : State) (f h : Nat) : State :=
  s.updFn f fun x => { x with windows := x.windows.map fun w =>
    if w.mapped && w.bind == 0 && w.target == h then { w with unbound := true } else w }

def effSyncFree (s : State) (r : Req) (t : Taken) : State :=
  match s.syncOf (mbPart r.m) (eTarget t.entry) with
  | some x =>
    let s := { s with sync := { objs := s.sync.objs.filter (·.index != x.index), free := s.sync.free.give x.index x.gen } }
    (s.unbind r.m x.handle).complete r ST.ok
  | none => s

/-- SYNC_FREE. -/
def execSyncFree (m : Nat) (c : Cmd) (s : State) : Host.Outcome State Fault Refusal :=
  run State.core s fun s => lolin 0x0702 m c s (chkSyncFree m) effSyncFree

/-- HOLDER of a lock must be the stream that holds it; elsewhere it is 0 (R225, R475). -/
def chkSyncRecover (m : Nat) (s : State) (e : Block) (_ : Taken) : Option (Nat × Nat) :=
  let h := eParam e 0 0 32
  match s.syncOf (mbPart m) (eTarget e) with
  | some x =>
    if x.typ = 0 then
      if h = 0 then some (ST.invalidArg, 16)
      else if (s.streamOf (mbPart m) h).isNone then some (ST.badHandle, 0)
      else if (s.streamOf (mbPart m) h).any (·.state != .opened) then some (ST.streamClosing, 0)
      else if x.holder = some ⟨s.chip, mbPart m, h⟩ then none else some (ST.syncNotHeld, 0)
    else if h = 0 then none else some (ST.invalidArg, 16)
  | none => none

def effSyncRecover (s : State) (r : Req) (t : Taken) : State :=
  match s.syncOf (mbPart r.m) (eTarget t.entry) with
  | some x =>
    let s := if x.state = 0 then s else s.updObj x.index fun y => { y with state := 0, arrivals := [] }
    s.complete r ST.ok (b2n (x.state != 0))
  | none => s

/-- SYNC_RECOVER: an ABANDONED lock is NORMAL again, a BROKEN barrier is re-armed. -/
def execSyncRecover (m : Nat) (c : Cmd) (s : State) : Host.Outcome State Fault Refusal :=
  run State.core s fun s => lolin 0x0703 m c s (chkSyncRecover m) effSyncRecover

/-- SYNC_QUERY RESULT. -/
def SyncObj.query (x : SyncObj) : Nat :=
  match x.typ with
  | 3 => x.count
  | 1 => x.count + x.state * 2 ^ 32
  | 2 => x.arrivals.length + x.state * 2 ^ 32
  | _ => b2n x.holder.isSome + x.state * 2 ^ 32

def effSyncQuery (s : State) (r : Req) (t : Taken) : State :=
  match s.syncOf (mbPart r.m) (eTarget t.entry) with
  | some x => s.complete r ST.ok x.query
  | none => s

/-- SYNC_QUERY. -/
def execSyncQuery (m : Nat) (c : Cmd) (s : State) : Host.Outcome State Fault Refusal :=
  run State.core s fun s => lolin 0x0704 m c s noCheck effSyncQuery

end Sys2Proof.Machine
end

