-- ==== Sys2Proof/Machine/Ledger.lean ====
section
/-! DEFINITION. The guarantee ledger (chapter 13): N and D of every resource (R259), admission (R261 to R263), window starts (R245, R262, R264 to R267), recovery (R268), and the LEDGER commands. -/
namespace Sys2Proof.Machine
open Sys2Proof

/-! ### N and D (Table 13-1) -/

/-- D of a Basin (R248), in MB/s. -/
def State.basinD (s : State) (i : Nat) : Nat :=
  let b := s.basin i
  if b.state != .ready || b.psr || b.psrDue then 0
  else Config.basinRate * (if b.doubled then 94 else 100) * (if b.throttled then s.prof.throttleDuty.getD i 4 else 8) / 800

/-- D of a resource. -/
def State.deliverable (s : State) (kind i : Nat) : Nat :=
  match kind with
  | 0 => s.basinD i
  | 1 => if (s.port i).state == .up && (s.port i).queued.isNone then passRate (s.port i).width else 0
  | 2 => s.nominal 2 i
  | _ => if s.hif.up then s.hif.rateMB else 0

/-- Changes of D noted with their stamps. -/
def State.noteD (s : State) : State :=
  { s with ledger := { s.ledger with resources := s.ledger.resources.map fun (r : Resource) =>
      let d := s.deliverable r.kind r.index
      (if d = r.dNow then r
       else { r with dPrev := if r.dStamp = s.now then r.dPrev else r.dNow, dNow := d, dStamp := s.now }) } }

/-- D as it stood at stamps before this one (R262). -/
def Resource.dAt (r : Resource) (now : Nat) : Nat := if r.dStamp < now then r.dNow else r.dPrev

/-! ### LEDGER_RESERVE, LEDGER_RELEASE, LEDGER_QUERY -/

/-- Reservations on a resource that will stand at the next window start. -/
def State.standing (s : State) (kind i : Nat) : List Resv :=
  s.ledger.resvs.filter fun r => r.kind == kind && r.index == i && r.released.isNone

def resvSum (l : List Resv) : Nat := (l.map (·.amount)).sum

/-- Whether a resource is OVERCOMMITTED in either direction. -/
def State.overcommitted (s : State) (kind i : Nat) : Bool :=
  s.ledger.resources.any fun r => r.kind == kind && r.index == i && r.overc

/-- Whether best effort receives no service on a resource: from the window of entry to the first window start after its recovery
(R265, R268). -/
def State.squeezed (s : State) (kind i dir : Nat) : Bool :=
  s.ledger.resources.any fun r => r.kind == kind && r.index == i && r.dir == dir && r.squeezed

/-- The checks of R263 in order. -/
def State.admission (s : State) (kind i amount p : Nat) : Option Nat :=
  let n := s.nominal kind i
  let a := s.prof.admitPct.getD kind 0
  let l := s.standing kind i
  let rp := resvSum (l.filter (·.part == p))
  if (s.part p).cfg.quota.getD kind 0 * a * n / 10000 < rp + amount then some ST.quotaExceeded
  else if s.overcommitted kind i then some ST.ledgerFull
  else if a * n / 100 < resvSum l + amount then some ST.ledgerFull
  else if s.deliverable kind i < resvSum l + amount then some ST.ledgerFull
  else if Config.reservationRecords ≤ s.ledger.resvs.length then some ST.busy
  else none

def chkLedgerReserve (m : Nat) (s : State) (e : Block) (_ : Taken) : Option (Nat × Nat) :=
  let kind := eParam e 0 0 2
  let i := eParam e 1 0 5
  let amount := eParam e 4 0 32
  let h := eParam e 8 0 32
  if h != 0 && (s.streamOf (mbPart m) h).isNone then some (ST.badHandle, 0)
  else if h != 0 && (s.streamOf (mbPart m) h).any (·.state != .opened) then some (ST.streamClosing, 0)
  else (s.admission kind i amount (mbPart m)).map (·, 0)

/-- A reservation committed now; it takes effect at the first window start after this stamp. -/
def State.reserve (s : State) (kind i rank amount p stream : Nat) : Nat × State :=
  let id := s.freeResv
  (id, { s with ledger := { s.ledger with resvs := s.ledger.resvs ++
    [{ id := id, kind := kind, index := i, rank := rank, amount := amount, part := p, stream := stream, committed := s.now }] } })

def effLedgerReserve (s : State) (r : Req) (t : Taken) : State :=
  let p := eParam t.entry
  let (id, s) := s.reserve (p 0 0 2) (p 1 0 5) (p 2 0 2) (p 4 0 32) (mbPart r.m) (p 8 0 32)
  s.complete r ST.ok id

/-- LEDGER_RESERVE. -/
def execLedgerReserve (m : Nat) (c : Cmd) (s : State) : Host.Outcome State Fault Refusal :=
  run State.core s fun s => lolin 0x0503 m c s (chkLedgerReserve m) effLedgerReserve

/-- A reservation of a partition by its ID. -/
def State.ownResv (s : State) (p id : Nat) : Option Resv :=
  s.ledger.resvs.find? fun r => r.id == id && r.part == p && r.released.isNone && !r.scrub

def chkLedgerRelease (m : Nat) (s : State) (e : Block) (_ : Taken) : Option (Nat × Nat) :=
  if (s.ownResv (mbPart m) (eParam e 0 0 16)).isNone then some (ST.noReservation, 0) else none

def effLedgerRelease (s : State) (r : Req) (t : Taken) : State :=
  (s.releaseResvs fun x => x.id == eParam t.entry 0 0 16 && x.part == mbPart r.m && !x.scrub).complete r ST.ok

/-- LEDGER_RELEASE. -/
def execLedgerRelease (m : Nat) (c : Cmd) (s : State) : Host.Outcome State Fault Refusal :=
  run State.core s fun s => lolin 0x0504 m c s (chkLedgerRelease m) effLedgerRelease

def effLedgerQuery (s : State) (r : Req) (t : Taken) : State :=
  let kind := eParam t.entry 0 0 2
  let i := eParam t.entry 1 0 5
  let l := (s.standing kind i).filter fun x => x.part == mbPart r.m && !x.scrub
  let dirs (x : Resv) : List Nat := if kind = 0 || kind = 2 then x.factors.take 1 else x.factors
  s.complete r ST.ok (resvSum l % 2 ^ 32 + (l.flatMap dirs).foldl min 32768 * 2 ^ 32 + b2n (s.overcommitted kind i) * 2 ^ 48)

/-- LEDGER_QUERY: the sum, the lowest factor of the partition's reservations there, OVERCOMMITTED (R170). -/
def execLedgerQuery (m : Nat) (c : Cmd) (s : State) : Host.Outcome State Fault Refusal :=
  run State.core s fun s => lolin 0x0505 m c s noCheck effLedgerQuery

/-! ### Window starts -/

/-- The factor of a rank (R266): `t` is T, `g`, `v`, `b` the sums held at GOLD, SILVER and BRONZE. -/
def rankFactor (t : Int) (g v b : Nat) (rank : Nat) : Nat :=
  let q (x : Int) (r : Nat) : Nat := if x ≤ 0 || r = 0 then 0 else (x * 32768 / r).toNat
  if (g + v + b : Nat) ≤ t then 32768
  else if (g + v : Nat) ≤ t then (if rank = 2 then q (t - (g + v : Nat)) b else 32768)
  else if (g : Int) ≤ t then (if rank = 0 then 32768 else if rank = 1 then q (t - g) v else 0)
  else if rank = 0 then q t g else 0

/-- Both events of R477. -/
def State.ledgerEvent (s : State) (code kind i dir d r : Nat) : State :=
  s.emit [0] code 2 0 (pay [(0, kind), (1, i), (2, dir), (4, d % 2 ^ 32), (8, r % 2 ^ 32)])

/-- EV_GUARANTEE_DEGRADED (R267), to the holder's partition. -/
def State.degraded (s : State) (r : Resv) (dir factor : Nat) : State :=
  let src := if r.stream = 0 then hPart r.part else r.stream
  s.emit [r.part + 1] EV.guaranteeDegraded 2 src
    (pay [(0, r.kind), (1, r.index), (2, r.rank), (3, dir), (4, r.id), (6, factor)]) false (some r.part)

/-- The factors of a resource set, each change reported while `tell`. -/
def State.setFactors (s : State) (kind i dir : Nat) (f : Nat → Nat) (tell : Bool) : State :=
  (s.ledger.resvs.filter fun r => r.kind == kind && r.index == i && r.inEffect).foldl (fun s r =>
    let v := f r.rank
    if r.factors.getD dir 32768 = v then s
    else
      let s := { s with ledger := { s.ledger with resvs := s.ledger.resvs.map fun (x : Resv) =>
        (if x.id == r.id then { x with factors := updAt x.factors dir fun _ => v } else x) } }
      if tell then s.degraded r dir v else s) s

def State.updResource (s : State) (kind i dir : Nat) (f : Resource → Resource) : State :=
  { s with ledger := { s.ledger with resources := s.ledger.resources.map fun (r : Resource) =>
      (if r.kind == kind && r.index == i && r.dir == dir then f r else r) } }

/-- The stamp at which the present window begins: a device-time multiple of 1,000 ns (R34). -/
def State.windowBegan (s : State) : Nat := s.now / 1000 * 1000

/-- One resource at a window start: entry into OVERCOMMITTED, the LC cap, the scale factors. -/
def State.resourceWindow (s : State) (x : Resource) : State :=
  let l := s.ledger.resvs.filter fun r => r.kind == x.kind && r.index == x.index && r.inEffect
  let sum (k : Nat) : Nat := resvSum (l.filter (·.rank == k))
  let R := resvSum l
  let D := x.dAt s.windowBegan
  let was := x.overc
  let s := if D < R && !was then s.ledgerEvent EV.ledgerOvercommitted x.kind x.index x.dir D R else s
  let overc := was || D < R
  let s := s.updResource x.kind x.index x.dir fun r => { r with
    overc := overc, squeezed := overc, windows := if overc then r.windows + 1 else 0,
    okSince := if !overc || D < R then none else some (r.okSince.getD s.windowBegan) }
  let cap := (s.basin x.index).cap
  let s := if x.kind != 0 then s else s.updBasin x.index fun b => { b with
    cap := if overc then max 20 (b.cap - 10) else min 60 (b.cap + 10) }
  let scaled : Bool := overc && (x.kind != 0 || (was && cap = 20))
  let T : Int := if x.kind = 0 then (D : Int) - 64 else D
  s.setFactors x.kind x.index x.dir (fun k => if scaled then rankFactor T (sum 0) (sum 1) (sum 2) k else 32768) overc

/-- A media core's balances credited with the window's tokens, a positive one cut back to them (R387). -/
def creditCore (l : List Resv) (i : Nat) (c : Core) : Core :=
  { c with balances := (l.filter fun r => r.kind == 2 && r.index == i && r.inEffect).map fun r =>
      let tok : Int := r.tokens.headD 0
      let old := ((c.balances.find? (·.1 == r.id)).map (·.2)).getD 0
      (r.id, min (old + tok) tok) }

/-- Releases and commits stamped before a window start take effect at it (R262). -/
def State.settleResvs (s : State) : State :=
  { s with ledger := { s.ledger with resvs :=
    (s.ledger.resvs.filter fun (r : Resv) => !(r.released.any (· < s.windowBegan) : Bool)).map fun (r : Resv) =>
      (if r.committed < s.windowBegan then { r with inEffect := true } else r) } }

/-- Tokens of a reservation for a window, per direction (R245). -/
def Resv.granted (r : Resv) : List Nat := r.factors.map fun f => r.amount * f / 32768

/-- Bytes a window grants the holder of some reservations: its weight in a round robin (R246, R360). -/
def grantOf (l : List Resv) : Nat := max 64 (l.map fun r => r.granted.headD 0).sum

/-- Tokens granted, and the Basins' windows begun anew (R245). -/
def State.grant (s : State) : State :=
  let rs := s.ledger.resvs.map fun (r : Resv) => (if r.inEffect then { r with tokens := r.granted } else r)
  { s with
    ledger := { s.ledger with resvs := rs },
    media := { s.media with cores := s.media.cores.mapIdx (creditCore rs) },
    basins := s.basins.map fun (b : Basin) => { b with used := 0, lcr := 0, mnt := 0, patrolDone := false } }

/-- The window of this stamp begun: releases and commits before it take effect, each resource is judged by what stood before
it, tokens are granted, and the Basins' windows begin anew. -/
def State.beginWindow (s : State) : State :=
  let s := s.noteD.settleResvs
  let s := s.ledger.resources.foldl State.resourceWindow s
  { s.grant with ledger := { s.grant.ledger with window := s.now / 1000 + 1 } }

/-- The window of this stamp begun, where no row has begun it yet: a slew may pass over the multiple of 1,000 ns (log entry 148). -/
def State.windowDue (s : State) : State := if s.ledger.window = s.now / 1000 + 1 then s else s.beginWindow

/-- WINDOW_START, at a device-time multiple of 1,000 ns or at the first stamp after it that a row sees. -/
def execWindowStart (s : State) : Host.Outcome State Fault Refusal := run State.core s State.windowDue

/-- A change of D noted, under the window of its stamp (R262). -/
def State.refreshD (s : State) : State := s.windowDue.noteD

/-- LEDGER_RECOVERED: at a window start, D ≥ R has held at every one for 100 ms; the LC cap of a Basin begins to rise. -/
def execLedgerRecovered (kind index dir : Nat) (s : State) : Host.Outcome State Fault Refusal :=
  run State.core s fun s =>
    let s := s.windowDue
    match s.ledger.resources.find? (fun r => r.kind == kind && r.index == index && r.dir == dir) with
    | some x =>
      if x.overc && x.okSince.any (fun t => t + 100000000 ≤ s.windowBegan) && s.now ≤ s.windowBegan + 1 then
        let R := resvSum (s.ledger.resvs.filter fun r => r.kind == kind && r.index == index && r.inEffect)
        let s := s.updResource kind index dir fun r => { r with overc := false, windows := 0, okSince := none }
        let s := s.setFactors kind index dir (fun _ => 32768) true
        let s := if kind = 0 then s.updBasin index fun b => { b with cap := min 60 (b.cap + 10) } else s
        s.ledgerEvent EV.ledgerRecovered kind index dir (x.dAt s.windowBegan) R
      else s
    | none => s

end Sys2Proof.Machine
end

