-- ==== Sys2Proof/Machine/Basins.lean ====
section
/-! DEFINITION. The Basins at work: training and retrains (R90 to R98), arbitration (R244 to R249), ECC with its retry (R250 to R253), thermal states (R256 to R258), and HBM_REPAIR and HBM_RETRAIN. -/
namespace Sys2Proof.Machine
open Sys2Proof

/-! ### A granule as the stack stores it (R250, R254, R255; log entry 149) -/

/-- The XTS tweak of a granule: Basin × 2^32 + Basin frame × 64 + granule (R254). -/
def granuleTweak (k : Nat) : BitVec 128 := BitVec.ofNat 128 (keyBasin k * 2 ^ 32 + keyFrame k * 64 + k % 4096 / 64)

/-- The half-plain whose save slot lies at a key of the suspend area (R203). -/
def saveSlotHalf (k : Nat) : Option Nat :=
  let h := (keyFrame k - Config.allocatableFrames) / 64 / 8 * 8 + keyBasin k
  if Config.allocatableFrames ≤ keyFrame k && h < 32 then some h else none

/-- The key slot of a Basin that covers a granule: a confidential partition's own, 32 the shared key, 33 the suspend key (R255). -/
def State.keySlot (s : State) (k : Nat) : Nat :=
  let own (p : Nat) : Option Nat := if p < 32 && (s.part p).cfg.confidential then some p else none
  match frameOwner s (keyBasin k) (keyFrame k) with
  | 34 => (((saveSlotHalf k).bind (halfOwner s)).bind own).getD 33
  | o => (own o).getD 32

/-- The 64 bytes that the stack holds for a granule (R254). -/
def State.ciphertext (s : State) (k : Nat) : List Byte :=
  let slot := s.keySlot k
  let epoch := if slot < 32 then (s.part slot).keyEpoch else s.logs.boot
  Config.xtsAes (Config.basinKey (keyBasin k) slot epoch) (granuleTweak k) ((List.range 64).map fun i => s.mem.get (k / 64 * 64 + i))

/-- The check bits that stand with a granule (R250). -/
def State.checkBits (s : State) (k : Nat) : BitVec 32 :=
  if s.mem.poisoned k then Config.poisonPattern else Config.deviceCode (s.ciphertext k)

/-- What reading 64 bytes and their check bits finds (R250). -/
inductive GranuleRead where
  | clean | correctable | uncorrectable | poisoned
deriving DecidableEq, Repr

/-- Whether one byte of the granule or of its check bits, put right, makes the code agree. -/
def oneByteOff (d : List Byte) (c : BitVec 32) : Bool :=
  let bytes := (List.range 256).map (BitVec.ofNat 8)
  (List.range 64).any (fun i => bytes.any fun v => Config.deviceCode (d.set i v) == c) ||
  (List.range 4).any fun i => ((c ^^^ Config.deviceCode d) &&& ~~~(0xFF#32 <<< (8 * i))) == 0

/-- The decision of the code: any error confined to one byte is corrected. -/
def granuleRead (d : List Byte) (c : BitVec 32) : GranuleRead :=
  if c = Config.poisonPattern then .poisoned
  else if c = Config.deviceCode d then .clean
  else if oneByteOff d c then .correctable
  else .uncorrectable

/-! ### Errors in stored data (R252, Table 12-5) -/

/-- LOCATION of the row that holds a Basin key (R240, Table 5-5). -/
def rowLoc (k : Nat) : Nat :=
  let G := keyFrame k / 16
  let g := k % 4096 / 64
  keyBasin k + g / 2 * 2 ^ 3 + g % 2 * 2 ^ 8 + G / 64 % 12 * 2 ^ 9 + G % 64 * 2 ^ 13 + G / 768 * 2 ^ 19

/-- A lasting row error: recorded once with SOURCE 1 and reported to the admin ring and the frame's owner; a row that
already has an entry goes to the AON log only. -/
def State.rowLasting (s : State) (loc : Nat) (owner : Nat) : State :=
  if (s.defectOf 0x08 loc).isSome || s.boot.newDefects.contains (0x08, loc) then
    s.logOnly EV.logTransient 0 (pay [(0, 0x08), (1, loc)])
  else
    let s := s.lasting 0x08 1 loc
    s.emit (0 :: (if owner < 32 then [owner + 1] else [])) EV.hbmErrorLasting 1 0 loc false (if owner < 32 then some owner else none)

/-- What a read of a granule meets. -/
def State.eccRead (s : State) (k : Nat) (c : ReadCheck) : State :=
  let loc := rowLoc k
  let known := (s.defectOf 0x08 loc).isSome
  let minor (s : State) : State :=
    if known then s.logOnly EV.logTransient 0 (pay [(0, 0x08), (1, loc)]) else s.transient 0x08 loc
  match c with
  | .clean => s
  | .correctable false => minor s
  | .correctable true => s.rowLasting loc (keyOwner s k)
  | .uncorrectable false => minor s
  | .uncorrectable true => ({ s with mem := s.mem.mark k true }).rowLasting loc (keyOwner s k)

/-! ### Arbitration (R244 to R249) -/

/-- The reservations of a request's holder in a Basin: the stream's own, else its partition's. -/
def State.holding (s : State) (b : Nat) (q : BasinReq) : List Resv :=
  let l := s.ledger.resvs.filter fun r => r.kind == 0 && r.index == b && r.inEffect && r.part == q.part
  let own := l.filter fun r => r.stream != 0 && q.stream == some r.stream
  if own.isEmpty then l.filter (·.stream == 0) else own

def tokensOf (l : List Resv) : Nat := (l.map fun r => r.tokens.headD 0).sum

/-- A holder's number: its stream handle, or its partition's handle. -/
def State.holderOf (s : State) (b : Nat) (q : BasinReq) : Nat :=
  match q.stream with
  | some h => if (s.holding b q).any (·.stream == h) then h else hPart q.part
  | none => hPart q.part

def State.hasTokens (s : State) (b : Nat) (q : BasinReq) : Bool := 0 < tokensOf (s.holding b q)

/-- LCR (Table 12-4). -/
def isLcr (q : BasinReq) : Bool := q.read && q.lc && !q.mnt

/-- The first of several requests by deadline, then arrival; or by arrival alone. -/
def firstBy (f : BasinReq → List Nat) : List BasinReq → Option BasinReq
  | [] => none
  | q :: r => some (r.foldl (fun a x => if before (f x) (f a) then x else a) q)

def byDeadline (q : BasinReq) : List Nat := [q.deadline, q.seq]
def byArrival (q : BasinReq) : List Nat := [q.seq]

/-- Deficit round robin weighted by tokens: the holder in front gains its grant, and is served when its deficit covers
its oldest request; else it goes to the back. -/
def drr (heads : List (Nat × BasinReq × Nat)) : Nat → List (Nat × Nat) → Option (BasinReq × List (Nat × Nat))
  | 0, _ => none
  | n + 1, l =>
    match l with
    | [] => none
    | (h, d) :: r =>
      match heads.find? (·.1 == h) with
      | none => drr heads n (r ++ [(h, 0)])
      | some (_, q, grant) =>
        if q.bytes ≤ d then some (q, (h, d - q.bytes) :: r)
        else if q.bytes ≤ d + grant then some (q, (h, d + grant - q.bytes) :: r)
        else drr heads n (r ++ [(h, d + grant)])

/-- Group 3: holders with tokens, each by its oldest request, in deficit round robin. -/
def State.pickGtd (s : State) (b : Nat) (l : List BasinReq) : Option (BasinReq × List (Nat × Nat)) :=
  let holders := (l.map (s.holderOf b)).dedup
  let heads := holders.filterMap fun h =>
    (firstBy byArrival (l.filter fun q => s.holderOf b q == h)).map fun q =>
      (h, q, grantOf (s.holding b q))
  let known := (s.basin b).deficit
  let ring := known ++ (holders.filter fun h => known.all (·.1 != h)).map fun h => (h, 0)
  drr heads (64 * (ring.length + 1)) ring

/-- The request an arbitration decision serves (R246), and the deficits after it. -/
def State.arbitrate (s : State) (b : Nat) : Option (BasinReq × List (Nat × Nat)) :=
  let x := s.basin b
  let D := s.basinD b
  let capB := D * x.cap / 100
  let oc := s.squeezed 0 b 0
  let l := x.queue
  let tok := s.hasTokens b
  let plain (q : Option BasinReq) : Option (BasinReq × List (Nat × Nat)) := q.map (·, x.deficit)
  let charged := l.filter fun q => isLcr q && tok q
  let uncharged := l.filter fun q => isLcr q && !tok q
  let waitingTokens := ((l.map fun q => (s.holderOf b q, tokensOf (s.holding b q))).dedup.map (·.2)).sum
  let fits (q : BasinReq) : Bool := waitingTokens + q.bytes + x.used ≤ D
  let below : Bool := x.lcr < capB
  let g1 := if below then plain (firstBy byDeadline charged) else none
  let g2 := if below then plain ((firstBy byDeadline uncharged).filter fits) else none
  let g3 := s.pickGtd b (l.filter fun q => (!isLcr q && !q.mnt && tok q) || (isLcr q && tok q && !below))
  let mnt := l.filter (·.mnt)
  let g4 := if !oc && x.mnt < D * 5 / 100 then plain (firstBy byArrival mnt) else none
  let g5 := plain (firstBy byDeadline uncharged)
  let g6 := if oc then none else plain (firstBy byArrival (l.filter fun q => q.mnt || (!isLcr q && !tok q)))
  [g1, g2, g3, g4, g5, g6].findSome? id

/-- Tokens spent by a holder. -/
def spend : Nat → List Nat → List Resv → List Resv
  | _, _, [] => []
  | n, ids, r :: t =>
    if ids.contains r.id then
      let k := r.tokens.headD 0
      { r with tokens := updAt r.tokens 0 fun v => v - n } :: spend (n - k) ids t
    else r :: spend n ids t

/-- A request served: its bytes, its tokens, and what a read meets. A write of less than a whole granule reads it first: one that
cannot be corrected is poisoned, and stays so (R251). -/
def State.serve (s : State) (b : Nat) (q : BasinReq) (deficit : List (Nat × Nat)) (check : ReadCheck) : State :=
  let ids := (s.holding b q).map (·.id)
  let s := if q.mnt then s else { s with ledger := { s.ledger with resvs := spend q.bytes ids s.ledger.resvs } }
  let s := s.updBasin b fun x => { x with
    queue := x.queue.filter (·.seq != q.seq), deficit := deficit, used := x.used + q.bytes,
    lcr := if isLcr q then x.lcr + q.bytes else x.lcr, mnt := if q.mnt then x.mnt + q.bytes else x.mnt }
  if q.read || q.bytes % 64 != 0 then s.eccRead q.addr check else s

/-- Whether a Basin issues commands now: in service, the chip not in QSC, where its stack refreshes itself (R235), in the open part
of a throttled window (Table 12-6), with room left in the window. -/
def State.issues (s : State) (b : Nat) : Bool :=
  let x := s.basin b
  let D := s.basinD b
  s.power.chip != .qsc && x.used < D && (!x.throttled || s.now % 1000 < s.prof.throttleDuty.getD b 4 * 125)

/-! ### Patrol and on-die reports (R253) -/

/-- Granules of a Basin that the patrol reads. -/
def patrolLen : Nat := Config.mappedFrames * 64

/-- The granule that a patrol on its 12-hour schedule reads now. -/
def Basin.patrolAt (x : Basin) (now : Nat) : Nat := (now - x.patrolStart) * patrolLen / 43200000000000

/-- Whether the patrol may read a granule in this window: one in a window, with room for it. -/
def State.patrolOpen (s : State) (b : Nat) : Bool :=
  let x := s.basin b
  s.power.chip != .qsc && x.state == .ready && !x.psr && !x.patrolDone && x.used + 64 ≤ s.basinD b

/-- The patrol's next granule read. -/
def State.patrolStep (s : State) (b : Nat) (check : ReadCheck) : State :=
  let x := s.basin b
  let last : Bool := x.patrol + 1 = patrolLen
  (s.updBasin b fun x => { x with
    patrolDone := true, mnt := x.mnt + 64, used := x.used + 64, patrol := if last then 0 else x.patrol + 1,
    patrolStart := if last then s.now else x.patrolStart }).eccRead (frameKey b (x.patrol / 64) (x.patrol % 64 * 64)) check

/-- One arbitration decision of a Basin in service: a patrol granule that is behind its schedule, else the first non-empty
group. -/
def State.decision (s : State) (b : Nat) (check : ReadCheck) : State :=
  if !s.issues b then s
  else if s.patrolOpen b && (s.basin b).patrol < (s.basin b).patrolAt s.now then s.patrolStep b check
  else match s.arbitrate b with
    | some (q, deficit) => s.serve b q deficit check
    | none => s

/-- Requests that arrive join the queue of 1,024. -/
def Basin.arrive (x : Basin) (l : List BasinReq) : Basin :=
  let take := l.take (1024 - x.queue.length)
  { x with queue := x.queue ++ take.mapIdx (fun i (q : BasinReq) => { q with seq := x.seq + i }), seq := x.seq + take.length }

/-- BASIN_ARBITRATE: requests join the queue and one decision is taken. A failed Basin answers every request with poison or
drops it. -/
def execBasinArbitrate (b : Nat) (arrivals : List BasinReq) (check : ReadCheck) (s : State) : Host.Outcome State Fault Refusal :=
  run State.core s fun s =>
    if 8 ≤ b then s
    else
      let s := s.windowDue.updBasin b fun x => x.arrive arrivals
      if (s.basin b).state == .failed then s.updBasin b fun x => { x with queue := [] } else s.decision b check

/-- PATROL_SCRUB: the next granule, once its turn in the 12-hour schedule has come. -/
def execPatrolScrub (b : Nat) (check : ReadCheck) (s : State) : Host.Outcome State Fault Refusal :=
  run State.core s fun s =>
    let s := s.windowDue
    if b < 8 && s.patrolOpen b && (s.basin b).patrol ≤ (s.basin b).patrolAt s.now then s.patrolStep b check else s

/-- HBM_ECC_REPORT_READ, every 1 s: rows reported in two reads running are lasting. -/
def execHbmEccReportRead (b : Nat) (rows : List Nat) (s : State) : Host.Outcome State Fault Refusal :=
  run State.core s fun s =>
    if b < 8 && (s.basin b).state == .ready && (s.basin b).reportAt.all (· + 1000000000 ≤ s.now) then
      let rows := rows.filter fun l => bits l 0 3 == b && locOk 0x08 l
      let again := rows.filter (s.basin b).reports.contains
      let s := s.updBasin b fun x => { x with reports := rows, reportAt := some s.now }
      again.foldl (fun s l => s.rowLasting l (frameOwner s b (keyFrame ((rowFrames16 l).headD 0 * 4096)))) s
    else s

/-! ### A Basin in and out of service -/

/-- A Basin FAILED: what waited on it ends, the capability word and the ledger follow (R95, R252). -/
def State.basinFails (s : State) (b : Nat) : State :=
  let x := s.basin b
  let s := s.updBasin b fun y => { y with
    state := .failed, queued := none, tempOnly := false, retraining := false, waitReqs := [], repairReqs := [], repairing := none, queue := [],
    psrDue := false, psr := false, deferred := false }
  let s := s.completeAll x.waitReqs (if x.retraining then ST.retrainFailed else ST.basinFailed)
  let s := s.completeAll (x.repairReqs.map (·.1)) ST.repairFailed
  let s := match x.repairing with
    | some (r, _) => s.complete r ST.repairFailed
    | none => s
  s.refreshCaps.refreshD.advance

/-- A Basin back in service after a retrain or a repair. -/
def State.basinReady (s : State) (b : Nat) : State :=
  let x := s.basin b
  let s := s.updBasin b fun y => { y with state := .ready, retraining := false, repairing := none, attempts := 0, waitReqs := if x.retraining then [] else y.waitReqs }
  (if x.retraining then s.completeAll x.waitReqs ST.ok else s).refreshD.advance

/-- Lane defects of a Basin recorded (R93): SPARED, or ISOLATED where a Basin that is beyond repair has more failed lanes in
the channel than redundant ones (log entry 50). -/
def State.lanes (s : State) (b : Nat) (ok : Bool) (lanes : List Nat) : State :=
  let mine := lanes.filter fun l => bits l 0 3 == b && locOk 0x09 l
  let all := (mine ++ (s.badLocs 0x09).filter fun l => bits l 0 3 == b).dedup
  let spent (l : Nat) : Bool := Config.redundantLanes < (all.filter fun k => k % 256 == l % 256).length
  mine.foldl (fun s l =>
    s.recordDefect { typ := 0x09, source := 4, state := b2n (ok || !spent l), temp := (s.basin b).temp, loc := l }) s

/-- A bank: every field of a row's LOCATION but the row. -/
def bankOf (loc : Nat) : Nat := loc % 2 ^ 19

/-- Whether a row's bank holds no soft repair yet (R90). -/
def Basin.softFree (x : Basin) (loc : Nat) : Bool := x.soft.all fun l => bankOf l != bankOf loc

/-- A row's soft repair noted: an entry SOFT_REPAIRED, where the record has room for it. -/
def State.noteSoft (s : State) (loc : Nat) : State :=
  match s.defectOf 0x08 loc with
  | some d => if d.state = 2 || s.defectFree.isNone then s else s.appendDefect { d with state := 2 }
  | none => s

/-- A recorded row soft-repaired in REPAIR where its bank has room, else retired (R90, R91). One under soft repair since before a
WARM stays so. -/
def State.softRepair (s : State) (b loc : Nat) : State :=
  if (s.basin b).soft.contains loc then s
  else if (s.basin b).softFree loc then
    (s.updBasin b fun x => { x with soft := x.soft ++ [loc] }).noteSoft loc
  else s.retireRow loc

/-- REPAIR at COLD: rows SOFT_REPAIRED, then new row defects. -/
def State.softRepairs (s : State) (b : Nat) : State :=
  let rows := (s.badLocs 0x08).filter fun l => bits l 0 3 == b
  let st (l : Nat) : Nat := ((s.defectOf 0x08 l).map (·.state)).getD 0
  ((rows.filter fun l => st l == 2) ++ (rows.filter fun l => st l < 2)).foldl (fun s l => s.softRepair b l) s

/-- A row that has failed TEST and its retest: one entry, and a soft repair where its bank has room, else it is retired. -/
def State.testRow (s : State) (b loc : Nat) : State :=
  let room := (s.basin b).softFree loc
  let s := s.recordDefect { typ := 0x08, source := 0, state := if room then 2 else 0, temp := (s.basin b).temp, loc := loc }
  if room then (s.updBasin b fun x => { x with soft := x.soft ++ [loc] }).noteSoft loc else s.retireRow loc

/-- TEST over: rows that passed their retest are transient (R85), the others are lasting, and the whole stack reads zero. -/
def State.tested (s : State) (b : Nat) (rows again : List Nat) : State :=
  let mine (l : List Nat) : List Nat := l.filter fun l => bits l 0 3 == b && locOk 0x08 l
  let s := (mine again).foldl (fun s l => s.bistPassed 0x08 l) s
  let s := (mine rows).foldl (fun s l => s.testRow b l) s
  { s with mem := s.mem.zero (frameKey b 0 0) (frameKey (b + 1) 0 0) }.updBasin b fun y =>
    { y with state := .ready, patrolStart := s.now }

/-- A state of Table 5-6 over, at COLD or after a WARM that found the Basin untrained. -/
def State.basinNext (s : State) (b : Nat) (ok : Bool) (rows again lanes : List Nat) : State :=
  let x := s.basin b
  let go (s : State) (n : BasinState) : State := s.updBasin b fun y => { y with state := n }
  match x.state with
  | .reset => go s .init
  | .init => go s .repair
  | .repair => go (s.softRepairs b) .lane
  | .lane => if ok then go (s.lanes b ok lanes) .train else (s.lanes b ok lanes).basinFails b
  | .train =>
    if ok then s.updBasin b fun y => { y with state := .test, trainTemp := y.temp, attempts := 0 }
    else if x.attempts = 0 then s.updBasin b fun y => { y with attempts := 1 }
    else s.basinFails b
  | .test => s.tested b rows again
  | _ => s

/-- BASIN_TRAIN_DONE: the state a Basin is in ends, with its outcome, the rows that failed TEST twice (`rows`) or once (`again`)
and the lanes that failed. At COLD the states of Table 5-6 follow one another, beside the start test, from RESET to READY; at a
retrain TRAIN leads to READY. TRAIN that fails twice makes the Basin FAILED; so does a channel beyond repair (log entry 50). -/
def execBasinTrainDone (b : Nat) (ok : Bool) (rows again lanes : List Nat) (s : State) : Host.Outcome State Fault Refusal :=
  run State.core s fun s =>
    let x := s.basin b
    if 8 ≤ b then s
    else if x.state == .train && x.retraining then
      let s := s.lanes b true lanes
      if ok then (s.updBasin b fun y => { y with trainTemp := y.temp }).basinReady b
      else if x.attempts = 0 then s.updBasin b fun y => { y with attempts := 1 }
      else s.basinFails b
    else if s.boot.stage == .test || s.boot.stage == .train then (s.basinNext b ok rows again lanes).bringUp.refreshD
    else s

/-! ### Retrains (R95, R98, R258) -/

/-- Whether R258 defers a temperature retrain of a Basin now. -/
def Basin.hot (x : Basin) : Bool := x.throttled || x.psr || x.psrDue

/-- R258 applied: a queued retrain that stands for a temperature move alone is deferred while the Basin is hot. -/
def Basin.defer (x : Basin) : Basin := { x with deferred := x.deferred || (x.tempOnly && x.queued.isSome && x.hot) }

/-- A retrain queued, or merged into the one that is queued or under way. -/
def State.trigger (s : State) (b : Nat) (temp : Bool) : State :=
  s.updBasin b fun x =>
    if x.retraining then x
    else match x.queued with
      | some _ => { x with tempOnly := x.tempOnly && temp, deferred := x.deferred && temp }
      | none => Basin.defer { x with queued := some s.now, tempOnly := temp }

/-- BASIN_RETRAIN_TRIGGER: the read eye, or a move of 20 °C from the temperature of the last training. -/
def execBasinRetrainTrigger (b : Nat) (cause : RetrainCause) (s : State) : Host.Outcome State Fault Refusal :=
  run State.core s fun s =>
    let x := s.basin b
    if 8 ≤ b || x.state == .failed || !(s.boot.stage == .ready || s.boot.stage == .service) then s
    else match cause with
      | .temperature => if 20 ≤ (x.temp - x.trainTemp).natAbs then s.trigger b true else s
      | _ => s.trigger b false

/-- What a Basin has queued that may start now: its stamp, and whether it is a repair. A retrain for a temperature move
waits until the Basin is throttled no longer. -/
def Basin.ready? (b : Basin) : Option (Nat × Bool) :=
  if b.state != .ready || b.psr || b.psrDue then none
  else
    let rep := (b.repairReqs.head?).map fun r => (r.2.2, true)
    let ret := if b.deferred && b.throttled then none else b.queued.map (·, false)
    match rep, ret with
    | some a, some c => some (if a.1 ≤ c.1 then a else c)
    | some a, none => some a
    | none, c => c

/-- The Basin whose retrain or repair is due first. -/
def State.nextBasin (s : State) : Option (Nat × Nat × Bool) :=
  if s.basins.any (fun b => b.retraining || b.repairing.isSome) then none
  else
    ((List.range 8).filterMap fun i => (s.basin i).ready?.map fun r => (i, r)).foldl (fun a c => match a with
      | none => some c
      | some d => if c.2.1 < d.2.1 then some c else some d) none

/-- The port whose retrain is due first. -/
def State.nextPort (s : State) : Option (Nat × Nat) :=
  if s.ports.any (·.retrain) then none
  else
    ((List.range 24).filterMap fun i => (s.port i).queued.map fun t => (i, t)).foldl (fun a c => match a with
      | none => some c
      | some d => if c.2 < d.2 then some c else some d) none

/-- A queued Basin starts: into DRAIN, for a retrain or for a repair. A deferred retrain whose temperature move no longer stands is
dropped (R258). -/
def State.startBasin (s : State) (i : Nat) (repair : Bool) : State :=
  let x := s.basin i
  if repair then
    match x.repairReqs with
    | (r, slot, _) :: rest =>
      (s.updBasin i fun y => { y with state := .drain, repairing := some (r, slot), repairReqs := rest }).refreshD
    | [] => s
  else if x.deferred && (x.temp - x.trainTemp).natAbs < 20 then
    s.updBasin i fun y => { y with queued := none, tempOnly := false, deferred := false }
  else (s.updBasin i fun y =>
    { y with state := .drain, retraining := true, queued := none, tempOnly := false, deferred := false, attempts := 0 }).refreshD

/-- A queued port starts: EQUALISE from the saved coefficients, unless FULL was asked for, on the first candidate set that it may
use; none left is for TRAIN's end to find. -/
def State.startPort (s : State) (i : Nat) : State :=
  (s.updPort i fun y => { y with
    state := .equalise, retrain := true, training := true, queued := none, cand := (s.laneSet i 0).getD 0, tries := 0 }).refreshD

/-- RETRAIN_START: the earliest queued retrain whose slot is free. -/
def execRetrainStart (s : State) : Host.Outcome State Fault Refusal :=
  run State.core s fun s =>
    match s.nextBasin, s.nextPort with
    | some (i, t, rep), some (j, u) => if t ≤ u then s.startBasin i rep else s.startPort j
    | some (i, _, rep), none => s.startBasin i rep
    | none, some (j, _) => s.startPort j
    | none, none => s

/-- BASIN_DRAIN_DONE: outstanding requests are complete; training, the repair, or protective self-refresh follows. -/
def execBasinDrainDone (b : Nat) (s : State) : Host.Outcome State Fault Refusal :=
  run State.core s fun s =>
    let x := s.basin b
    if x.psrDue && (x.state == .drain || x.state == .ready) then (s.updBasin b fun y => { y with psr := true, psrDue := false, state := .ready }).refreshD
    else if x.state != .drain then s
    else if x.repairing.isSome then s.updBasin b fun y => { y with state := .repair }
    else s.updBasin b fun y => { y with state := .train }

/-! ### Thermal states (R256) -/

/-- The stamp since which a reading has lain below a threshold. -/
def below (t lim : Int) (old : Option Nat) (now : Nat) : Option Nat := if t < lim then some (old.getD now) else none

/-- EV_HBM_THERMAL with the state reached. -/
def State.thermalEvent (s : State) (b : Nat) : State :=
  s.emit [0] EV.hbmThermal 2 0 (pay [(0, b), (1, (s.basin b).thermal), (2, twos 16 (s.basin b).temp)])

/-- A Basin's thermal readings and flags after a temperature `t`, its thresholds lowered by `th` (Table 12-6); `hot` where it
passes the self-refresh limit. -/
def Basin.heard (x : Basin) (t th : Int) (now : Nat) (hot : Bool) : Basin :=
  { x with
    temp := t, below82 := below t (82 - th) x.below82 now, below92 := below t (92 - th) x.below92 now,
    below95 := below t (95 - th) x.below95 now, below80 := below t (80 - th) x.below80 now,
    doubled := x.doubled || decide (85 - th ≤ t), throttled := x.throttled || decide (95 - th ≤ t),
    withdrawn := x.withdrawn || hot }

/-- Whether a temperature takes a Basin to self-refresh: 105 °C less its threshold offset, where it is not there yet. -/
def State.tooHot (s : State) (b : Nat) (t : Int) : Bool :=
  105 - s.prof.threshOffset.getD b 0 ≤ t && !(s.basin b).psr && !(s.basin b).psrDue && (s.basin b).state != .failed

/-- A Basin bound for self-refresh: at once where it is retraining, which is put off; else once it has drained. A repair
that still drains goes back to the front of its queue, and one under way ends first (log entry 119). -/
def State.toSelfRefresh (s : State) (b : Nat) (busy : Bool) : State :=
  if busy then
    s.updBasin b fun x => { x with psr := true, state := .ready, retraining := false, queued := some s.now, tempOnly := false, deferred := false }
  else s.updBasin b fun x =>
    let x := match x.repairing, x.state with
      | some (r, slot), .drain => { x with repairing := none, repairReqs := (r, slot, s.now) :: x.repairReqs }
      | _, _ => x
    Basin.defer { x with psrDue := true, state := if x.state == .ready then .drain else x.state }

/-- SLOW sent to every collective group for a throttled Basin (R381), and its alert cause. -/
def State.basinSlows (s : State) (b : Nat) : State := (s.slowAll (s.prof.throttleDuty.getD b 4)).alertBit 4

/-- The device withdrawn for its temperature. -/
def State.withdrawHot (s : State) : State :=
  ({ s with boot := { s.boot with thermalWithdrawn := true } }.withdraw.refreshCaps).alertBit 4

/-- What a Basin's thermal state brings: its deliverable bandwidth, and the event where the state is another than `old`. -/
def State.thermalChange (s : State) (b old : Nat) : State :=
  let s := s.refreshD
  if (s.basin b).thermal = old then s else s.thermalEvent b

/-- BASIN_THERMAL_READ, every 100 µs (R235): every condition of Table 12-6 that the reading meets applies at once. -/
def execBasinThermalRead (b : Nat) (t : Int) (s : State) : Host.Outcome State Fault Refusal :=
  run State.core s fun s =>
    if 8 ≤ b || !(s.basin b).readAt.all (· + 100000 ≤ s.now) then s
    else
      let old := s.basin b
      let hot := s.tooHot b t
      let s := s.updBasin b fun x => { (x.heard t (s.prof.threshOffset.getD b 0) s.now hot).defer with readAt := some s.now }
      let s := if hot then s.toSelfRefresh b old.retraining else s
      let s := if !old.throttled && (s.basin b).throttled then s.basinSlows b else s
      let s := if hot then s.withdrawHot else s
      s.thermalChange b old.thermal

/-- Whether a temperature has stayed below a limit since a stamp for a time. -/
def heldFor (o : Option Nat) (ns now : Nat) : Bool := o.any fun t => t + ns ≤ now

/-- A Basin's thermal flags once it has stayed below the limits for their times (Table 12-6). -/
def Basin.cooled (x : Basin) (now : Nat) : Basin :=
  if x.psr then (if heldFor x.below95 10000000 now then { x with psr := false, throttled := true } else x)
  else
    let x := if x.throttled && heldFor x.below92 1000000 now then { x with throttled := false } else x
    if x.doubled && !x.throttled && heldFor x.below82 1000000 now then { x with doubled := false } else x

/-- A Basin's share in the withdrawal ended, and the withdrawal with the last of them. -/
def State.basinReturns (s : State) (b : Nat) : State :=
  let s := s.updBasin b fun x => { x with withdrawn := false }
  if s.basins.any (·.withdrawn) then s else { s with boot := { s.boot with thermalWithdrawn := false } }.refreshCaps

/-- BASIN_THERMAL_RELEASE: each state whose release temperature has held for its dwell is left. -/
def execBasinThermalRelease (b : Nat) (s : State) : Host.Outcome State Fault Refusal :=
  run State.core s fun s =>
    if 8 ≤ b then s
    else
      let old := s.basin b
      let s := s.updBasin b fun x => x.cooled s.now
      let s := if heldFor old.below80 10000000000 s.now && old.withdrawn then s.basinReturns b else s
      let s := s.refreshD
      if (s.basin b).thermal = old.thermal then s else (s.thermalEvent b).advance

/-! ### HBM_REPAIR, HBM_RETRAIN (R92, R95) -/

/-- Hard repairs that the record holds in a bank. -/
def State.hardRepairs (s : State) (bank : Nat) : Nat :=
  ((s.defects.filter fun d => d.typ == 0x08 && d.state == 3 && bankOf d.loc == bank).map (·.loc)).dedup.length

/-- The entry a slot holds, if it is a row's. -/
def State.rowEntry (s : State) (slot : Nat) : Option Defect := (s.defectAt slot).filter (·.typ == 0x08)

def chkHbmRepair (s : State) (e : Block) (_ : Taken) : Option (Nat × Nat) :=
  match s.rowEntry (eParam e 0 0 12) with
  | none => some (ST.noDefect, 0)
  | some d => if Config.hardRepairLeft (bankOf d.loc) (s.hardRepairs (bankOf d.loc)) then none else some (ST.repairExhausted, 0)

def effHbmRepair (s : State) (r : Req) (t : Taken) : State :=
  let slot := eParam t.entry 0 0 12
  match s.rowEntry slot with
  | some d =>
    let b := bits d.loc 0 3
    if (s.basin b).state == .failed then s.complete r ST.repairFailed
    else (s.updBasin b fun x => { x with repairReqs := x.repairReqs ++ [(r, slot, s.now)] }).wait r
  | none => s

/-- HBM_REPAIR: queued under R98. -/
def execHbmRepair (m : Nat) (c : Cmd) (s : State) : Host.Outcome State Fault Refusal :=
  run State.core s fun s => lolin 0x0E03 m c s chkHbmRepair effHbmRepair

/-- HBM_REPAIR_DONE: granules that could not be corrected are poisoned, an entry HARD_REPAIRED is appended on
success, and the Basin returns to service. -/
def execHbmRepairDone (b : Nat) (ok : Bool) (bad : List Nat) (s : State) : Host.Outcome State Fault Refusal :=
  run State.core s fun s =>
    match (s.basin b).repairing with
    | some (r, slot) =>
      if (s.basin b).state != .repair then s
      else match s.rowEntry slot with
        | none => (s.basinReady b).complete r ST.repairFailed
        | some d =>
          let row := rowFrames16 d.loc
          let mine (k : Nat) : Bool := affineBase ≤ k && row.contains (k / 4096)
          let s := { s with mem := (bad.filter mine).foldl (fun m k => m.mark k true) s.mem }
          let s := if ok then s.appendDefect { d with state := 3 } else s
          (s.basinReady b).complete r (if ok then ST.ok else ST.repairFailed)
    | none => s

def chkHbmRetrain (s : State) (e : Block) (_ : Taken) : Option (Nat × Nat) :=
  if (s.basin (eParam e 0 0 3)).state == .failed then some (ST.basinFailed, 0) else none

def effHbmRetrain (s : State) (r : Req) (t : Taken) : State :=
  let b := eParam t.entry 0 0 3
  ((s.trigger b false).updBasin b fun x => { x with waitReqs := x.waitReqs ++ [r] }).wait r

/-- HBM_RETRAIN: queued, or merged. -/
def execHbmRetrain (m : Nat) (c : Cmd) (s : State) : Host.Outcome State Fault Refusal :=
  run State.core s fun s => lolin 0x0E04 m c s chkHbmRetrain effHbmRetrain

end Sys2Proof.Machine
end

