-- ==== Sys2Proof/Machine/Array.lean ====
section
/-! DEFINITION. The tensor core's arithmetic: products (R292, R293), chunk sums (R294 to R296), combination in ACC52 (R297) and its open order (R298). -/
namespace Sys2Proof.Machine
open Sys2Proof

/-! ### Products -/

/-- The product of two values: NaN for a NaN operand or infinity times zero (R296). -/
def Val.mul (a b : Val) : Val :=
  let n := a.neg != b.neg
  match a, b with
  | .nan _, _ => .nan false
  | _, .nan _ => .nan false
  | .inf _, .zero _ => .nan false
  | .zero _, .inf _ => .nan false
  | .inf _, _ => .inf n
  | _, .inf _ => .inf n
  | .zero _, _ => .zero n
  | _, .zero _ => .zero n
  | .num x, .num y => .num (x.mul y)

/-- hi, mid and lo of an FP32 operand, counted from its leading set bit (R293). -/
def split3 (d : Dy) : Dy × Dy × Dy :=
  let m := d.m.natAbs
  let top := m.log2
  let cut (k : Nat) : Nat := if top + 1 ≤ k then m else m / 2 ^ (top + 1 - k) * 2 ^ (top + 1 - k)
  let sg (n : Nat) : Dy := ⟨if d.isNeg then -(n : Int) else n, d.e⟩
  (sg (cut 8), sg (cut 16 - cut 8), sg (m - cut 16))

/-- The products formed for one reduction index: one, or in the FP32 class the six of R293. -/
def products (wide : Bool) (a b : Val) : List Val :=
  match wide, a, b with
  | true, .num x, .num y =>
    let (xh, xm, xl) := split3 x
    let (yh, ym, yl) := split3 y
    ([(xh, yh), (xh, ym), (xm, yh), (xh, yl), (xl, yh), (xm, ym)].map fun p => Val.ofDy (p.1.mul p.2))
  | _, _, _ => [a.mul b]

/-! ### Rate classes (Table 15-1) -/

/-- Formats of the 8-bit class other than INT8. -/
def class8 (f : Nat) : Bool := f == 0x04 || f == 0x05 || isMx8 f
where
  isMx8 (f : Nat) : Bool := 0x10 ≤ f && f ≤ 0x15

/-- The chunk length L of a pair of operand formats; none for a pair that is not in the table. -/
def chunkLen (a b : Nat) : Option Nat :=
  let sixteen (f : Nat) : Bool := f == 0x02 || f == 0x03
  if a = 0x14 ∧ b = 0x14 then some 64
  else if (class8 a && class8 b) || (a == 0x20 && b == 0x20) then some 32
  else if (sixteen a && (sixteen b || class8 b)) || (sixteen b && class8 a) then some 16
  else if (a == 0x01 && (b == 0x01 || sixteen b || class8 b)) || (b == 0x01 && (sixteen a || class8 a)) then some 8
  else none

/-- Whether a pair is of the FP32 class. -/
def isWide (a b : Nat) : Bool := chunkLen a b == some 8

/-! ### Chunk sums -/

/-- The sum of one chunk's products (R295, R296). -/
def chunkSum (ps : List Val) : Val :=
  let infs := ps.filter (·.isInf)
  if ps.any (·.isNan) || (infs.any (·.neg) && infs.any fun v => !v.neg) then .nan false
  else match infs with
    | v :: _ => v
    | [] => match maxMag ps with
      | none => .zero false
      | some p =>
        let u := p.log2 - 39
        Val.ofDy ⟨(ps.map fun v => quoFloor v.dy Dy.one u).sum, u⟩

/-- A list cut into pieces of `n`. -/
def cutEvery {α : Type} (n : Nat) : Nat → List α → List (List α)
  | 0, _ => []
  | _, [] => []
  | k + 1, l => l.take n :: cutEvery n k (l.drop n)

/-- A reduction cut into chunks of L consecutive indices (R294), each index with the products it forms. -/
def chunksOf (n : Nat) (l : List (List Val)) : List Val :=
  (cutEvery n l.length l).map fun c => chunkSum c.flatten

/-! ### Combination -/

/-- The largest number with `man` stored significand bits and spacing at least 2^`emin` that is at or below n / d. -/
def floorQuo (man : Nat) (emin : Int) (n d : Dy) : Dy :=
  if n.m = 0 then ⟨0, 0⟩ else
  let sp := max (quoLog2 n d - man) emin
  ⟨quoFloor n d sp, sp⟩

/-- The largest value of a format at or below n / d (R297): beyond the largest finite it stays there, below the
most negative it is −infinity. -/
def Fmt.floorQuo (f : Fmt) (n d : Dy) : Val :=
  let q := Machine.floorQuo f.man f.emin n d
  let top := f.mag f.maxCode
  if top.lt q then .num top else if q.lt top.neg then .inf true else Val.ofDy q

/-- IEEE 754 addition but for its rounding, which is R297's, and its zeros, which are +0. -/
def combineIn (f : Fmt) (a b : Val) : Val :=
  match a, b with
  | .nan _, _ => .nan false
  | _, .nan _ => .nan false
  | .inf x, .inf y => if x = y then .inf x else .nan false
  | .inf x, _ => .inf x
  | _, .inf y => .inf y
  | _, _ => f.floorQuo (a.dy.add b.dy) Dy.one

/-- One combination in ACC52 (R297). -/
def combine (a b : Val) : Val := combineIn Fmt.acc52 a b

/-- The layout in which the sums of R313 are held: 40 stored bits in the exponent range of ER32. -/
def Fmt.sum : Fmt := ⟨12, 40, 2047, 0⟩

/-- What a choice names of a combination: the numbers of a list of values. -/
def addends (l : List Val) : List (Int × Int) := l.map fun v => (v.dy.m, v.dy.e)

/-- Chunk sums added to partial accumulators in the order the choices give. -/
def foldChunks (pick : Nat → Nat) : Nat → Nat → List Val → List Val → List Val
  | 0, _, _, acc => acc
  | n + 1, k, l, acc =>
    match l[pick (2 * k) % l.length]? with
    | none => acc
    | some c => foldChunks pick n (k + 1) (l.eraseIdx (pick (2 * k) % l.length))
        (updAt acc (pick (2 * k + 1) % acc.length) fun a => combine a c)

/-- Partial accumulators merged in the order the choices give. -/
def mergeParts (pick : Nat → Nat) : Nat → Nat → List Val → Val
  | 0, _, acc => acc.headD (.zero false)
  | n + 1, k, acc =>
    match acc with
    | [] => .zero false
    | [a] => a
    | a :: r =>
      let i := pick k % r.length
      match r[i]? with
      | none => a
      | some b =>
        let rest := r.eraseIdx i
        let j := pick (k + 1) % (rest.length + 1)
        mergeParts pick n (k + 2) (if j = 0 then combine a b :: rest else a :: updAt rest (j - 1) fun x => combine x b)

/-- One output element: its initial value and chunk sums combined (R297) in an order the spec leaves open (R298):
among up to as many partial accumulators as there are chunks, hence in at most 2c − 1 combinations. -/
def reduce (key elem : Nat) (init : Val) (chunks : List Val) : Val :=
  let pick := Config.combinationChoice key elem (addends (init :: chunks))
  let c := chunks.length
  let g := pick 0 % max c 1 + 1
  let acc := foldChunks (fun k => pick (k + 1)) c 0 chunks (init :: List.replicate (g - 1) (.zero false))
  mergeParts (fun k => pick (k + 1 + 2 * c)) g 0 acc

end Sys2Proof.Machine
end

