-- ==== Sys2Proof/Machine/Special.lean ====
section
/-! DEFINITION. Special functions: the mathematical functions to far more than the accuracy the spec states, the special values of Table 16-2, and the open value inside the accuracy bound (R309 to R311, R313, R320; log entry 5). -/
namespace Sys2Proof.Machine
open Sys2Proof

/-! ### Reference values in fixed point

A real number x stands as ⌊x × 2^640⌋ or within a few units of it. -/

def fxP : Nat := 640
def fxOne : Int := 2 ^ fxP

/-- A dyadic number in fixed point. -/
def Dy.fx (d : Dy) : Int := quoFloor d Dy.one (-(fxP : Int))
/-- A fixed-point number as a dyadic one. -/
def ofFx (x : Int) : Dy := ⟨x, -(fxP : Int)⟩
def fxMul (x y : Int) : Int := x * y / fxOne

/-- Bits of an integer square root from bit `k` down. -/
def isqrtFrom (n : Nat) : Nat → Nat → Nat
  | 0, r => r
  | k + 1, r => isqrtFrom n k (if (r + 2 ^ k) * (r + 2 ^ k) ≤ n then r + 2 ^ k else r)
/-- ⌊√n⌋. -/
def isqrt (n : Nat) : Nat := isqrtFrom n (n.log2 / 2 + 1) 0

/-- ln 2. -/
def fxLn2 : Int := ((List.range 660).map fun k => fxOne / ((k + 1 : Nat) * 2 ^ (k + 1) : Int)).sum

/-- arctan(1 / n). -/
def fxAtanInv (n : Int) : Int :=
  ((List.range 150).map fun j => (if j % 2 = 0 then 1 else -1) * (fxOne / ((2 * j + 1 : Nat) * n ^ (2 * j + 1)))).sum
/-- π, by Machin's formula. -/
def fxPi : Int := 16 * fxAtanInv 5 - 4 * fxAtanInv 239

/-- Sum of a power series by its term rule: from term `t` number `k` on, `n` terms. -/
def series (next : Nat → Int → Int) : Nat → Nat → Int → Int
  | 0, _, _ => 0
  | n + 1, k, t => t + series next n (k + 1) (next k t)

/-- e^x of a fixed-point number. -/
def expFx (x : Int) : Dy :=
  let n := Int.fdiv x fxLn2
  let r := x - n * fxLn2
  ⟨series (fun k t => fxMul t r / (k + 1 : Nat)) 160 0 fxOne, n - fxP⟩

/-- A number limited to [−b, b]. -/
def Dy.limit (b : Int) (d : Dy) : Dy :=
  if (Dy.ofInt b).lt d then Dy.ofInt b else if d.lt (Dy.ofInt (-b)) then Dy.ofInt (-b) else d

/-- e^x; beyond ±65,536 it stays at that end, outside every format. -/
def expDy (x : Dy) : Dy := expFx (x.limit 65536).fx

/-- ln x of a positive number, in fixed point. -/
def lnFx (x : Dy) : Int :=
  let y := (x.scale (-x.log2)).fx
  let t := (y - fxOne) * fxOne / (y + fxOne)
  let t2 := fxMul t t
  let s := ((List.range 210).foldl (fun (a : Int × Int) j => (a.1 + a.2 / (2 * j + 1 : Nat), fxMul a.2 t2)) (0, t)).1
  2 * s + x.log2 * fxLn2

/-- √x of a positive number: exact where it can be, else to more than 300 bits. -/
def sqrtDy (x : Dy) : Dy :=
  let (m, e) := if x.e % 2 = 0 then (x.m.natAbs, x.e) else (2 * x.m.natAbs, x.e - 1)
  let r := isqrt m
  if r * r = m then ⟨r, e / 2⟩ else ⟨isqrt (m * 2 ^ 640), e / 2 - 320⟩

/-- 1 / (1 + e^−x). -/
def sigmoidDy (x : Dy) : Dy := quoDy 400 Dy.one (Dy.one.add (expDy (x.limit 2000).neg))

/-- tanh x. -/
def tanhDy (x : Dy) : Dy :=
  let e := expDy ((x.limit 1000).scale 1)
  quoDy 400 (e.sub Dy.one) (e.add Dy.one)

/-- The normal distribution function. -/
def phiDy (x : Dy) : Dy :=
  let y := (x.limit 20).fx
  let h := fxMul y y / 2
  let s := ((List.range 1200).foldl (fun (a : Int × Int) n =>
    (a.1 + a.2 / (2 * n + 1 : Nat), -(fxMul a.2 h / (n + 1 : Nat)))) (0, y)).1
  let root : Int := isqrt (2 * fxPi * fxOne).natAbs
  ofFx (fxOne / 2 + s * fxOne / root)

/-- sin and cos of a fixed-point angle. -/
def sinCosFx (x : Int) : Int × Int :=
  let r := x - Int.fdiv x (2 * fxPi) * (2 * fxPi)
  let r2 := fxMul r r
  (series (fun k t => -(fxMul t r2 / ((2 * k + 2) * (2 * k + 3) : Nat))) 120 0 r,
   series (fun k t => -(fxMul t r2 / ((2 * k + 1) * (2 * k + 2) : Nat))) 120 0 fxOne)

/-! ### The open value inside a bound -/

/-- Exponent of one ulp of a layout at a number, the subnormal spacing below (R311). -/
def Fmt.ulpAt (f : Fmt) (y : Dy) : Int := if y.m = 0 then f.emin else max (y.log2 - f.man) f.emin

/-- A number within k × 2^`u` of `y`: the free value t in units of 2^(u − 40), limited to below k units of 2^u. -/
def nearBy (t : Int) (k : Nat) (u : Int) (y : Dy) : Dy :=
  let b : Int := k * 2 ^ 40 - 1
  y.add ⟨max (-b) (min b t), u - 40⟩

/-- v of R311: within one FP32 ulp of the function's value. -/
def near32 (code : Nat) (a b y : Dy) : Val :=
  Val.ofDy (nearBy (Config.sfuValue code a.m a.e b.m b.e) 1 (Fmt.fp32.ulpAt y) y)

/-- A value before the converter as R311 bounds what FP32 with ROUND 0 writes of it: within one ulp of the exact `y`, to
which a value that would be written farther away gives place. -/
def keepUlp (y : Dy) (v : Val) : Val :=
  match toFp32 v with
  | .inf _ => v
  | w => if (w.dy.sub y).abs.le ⟨1, Fmt.fp32.ulpAt y⟩ then v else Val.ofDy y

/-- A number in [−1, 1]. -/
def inUnit (code : Nat) (x : Dy) : Dy :=
  let b : Int := 2 ^ 40
  ⟨max (-b) (min b (Config.sfuValue code x.m x.e 0 0)), -40⟩

/-- The ER32 value below a quotient or the next one, as a free value says: within one ulp of ER32 (R313). -/
def er32Near (t : Int) (n d : Dy) : Dy :=
  let sp := max (quoLog2 n d - 19) Fmt.er32.emin
  let q := quoFloor n d sp
  if (d.mul ⟨q, sp⟩).sub n |>.m |> (· = 0) then ⟨q + (t % 3 - 1), sp⟩ else ⟨q + t % 2, sp⟩

/-- e^z of the exponential path: an ER32 value (R313). -/
def er32Exp (z : Dy) : Dy := er32Near (Config.sfuValue 0x100 z.m z.e 0 0) (expDy z) Dy.one

/-! ### Elementwise functions (Table 16-2) -/

/-- IEEE 754 addition of exact values, its rounding left to the converter (R310). -/
def Val.add (a b : Val) : Val :=
  match a, b with
  | .nan _, _ => .nan false
  | _, .nan _ => .nan false
  | .inf x, .inf y => if x = y then .inf x else .nan false
  | .inf x, _ => .inf x
  | _, .inf y => .inf y
  | .zero x, .zero y => .zero (x && y)
  | x, y => Val.ofDy (x.dy.add y.dy)

def Val.flip : Val → Val
  | .nan n => .nan n
  | .inf n => .inf !n
  | .zero n => .zero !n
  | .num d => .num d.neg

/-- a ≤ b of values that are not NaN, −0 below +0. -/
def Val.le (a b : Val) : Bool :=
  match a, b with
  | .inf n, .inf k => n || !k
  | .inf n, _ => n
  | _, .inf k => !k
  | .zero n, .zero k => n || !k
  | x, y => x.dy.le y.dy

/-- MAX and MIN (R310). -/
def Val.maxOf (a b : Val) : Val := if a.isNan || b.isNan then .nan false else if a.le b then b else a
def Val.minOf (a b : Val) : Val := if a.isNan || b.isNan then .nan false else if a.le b then a else b

/-- Whether a number is a power of two with an even exponent. -/
def evenPower (d : Dy) : Bool := !d.isNeg && d.m.natAbs == 2 ^ d.m.natAbs.log2 && d.log2 % 2 == 0

/-- The function's value at a finite number other than 0, to far more than FP32, and whether R311 states it exact;
none outside the domain of the accuracy claim. -/
def sfuReal (code : Nat) (x : Dy) : Option (Dy × Bool) :=
  match code with
  | 0x01 => some (expDy x, false)
  | 0x02 => if x.isNeg then none else some (if (x.sub Dy.one).m = 0 then (⟨0, 0⟩, true) else (ofFx (lnFx x), false))
  | 0x03 => some (quoDy 400 Dy.one x, evenPower x)
  | 0x04 => if x.isNeg then none else let r := sqrtDy x
    some (r, ((r.mul r).sub x).m == 0)
  | 0x05 => if x.isNeg then none else some (quoDy 300 Dy.one (sqrtDy x), evenPower x)
  | 0x06 => some (sigmoidDy x, false)
  | 0x07 => some (tanhDy x, false)
  | 0x08 => some (x.mul (phiDy x), false)
  | 0x09 =>
    -- x × sigmoid(2 √(2/π) (x + 0.044715 x³)), the usual form of GELU's tanh approximation (log entry 51)
    let c := sqrtDy (quoDy 600 ⟨8, 0⟩ (ofFx fxPi))
    let p := x.add ((quoDy 400 ⟨44715, 0⟩ ⟨1000000, 0⟩).mul (x.mul (x.mul x)))
    some (x.mul (sigmoidDy (c.mul p)), false)
  | 0x0A => some (x.mul (sigmoidDy x), false)
  | 0x0C => if (Dy.ofInt (2 ^ 20)).lt x.abs then none else some (ofFx (sinCosFx x.fx).1, false)
  | 0x0D => if (Dy.ofInt (2 ^ 20)).lt x.abs then none else some (ofFx (sinCosFx x.fx).2, false)
  | _ => none

/-- The special values of Table 16-2 and the results that R311 rounds once; none where the accuracy claim governs.
`p` is PARAM. -/
def sfuExact (code : Nat) (x y p : Val) : Option Val :=
  let one : Val := .num Dy.one
  let half : Val := .num ⟨1, -1⟩
  if x.isNan then some (.nan false) else
  match code, x with
  | 0x01, .zero _ => some one
  | 0x01, .inf n => some (if n then .zero false else .inf false)
  | 0x02, .zero _ => some (.inf true)
  | 0x02, .inf n => some (if n then .nan false else .inf false)
  | 0x03, .zero n => some (.inf n)
  | 0x03, .inf n => some (.zero n)
  | 0x04, .zero n => some (.zero n)
  | 0x04, .inf n => some (if n then .nan false else .inf false)
  | 0x05, .zero n => some (.inf n)
  | 0x05, .inf n => some (if n then .nan false else .zero false)
  | 0x06, .zero _ => some half
  | 0x06, .inf n => some (if n then .zero false else one)
  | 0x07, .zero n => some (.zero n)
  | 0x07, .inf n => some (.num ⟨if n then -1 else 1, 0⟩)
  | 0x08, .zero n => some (.zero n)
  | 0x08, .inf n => some (if n then .zero true else .inf false)
  | 0x09, .zero n => some (.zero n)
  | 0x09, .inf n => some (if n then .zero true else .inf false)
  | 0x0A, .zero n => some (.zero n)
  | 0x0A, .inf n => some (if n then .zero true else .inf false)
  | 0x0B, v => some (v.maxOf (.zero false))
  | 0x0C, .zero n => some (.zero n)
  | 0x0C, .inf _ => some (.nan false)
  | 0x0D, .zero _ => some one
  | 0x0D, .inf _ => some (.nan false)
  | 0x10, v => some (v.add y)
  | 0x11, v => some (v.add y.flip)
  | 0x12, v => some (v.mul y)
  | 0x13, v => some (v.maxOf y)
  | 0x14, v => some (v.minOf y)
  | 0x15, v => some (v.mul p)
  | _, .num d => match sfuReal code d with
    | some (r, true) => some (Val.ofDy r)
    | some (_, false) => none
    | none => if code = 0x0C || code = 0x0D then none else some (.nan false)
  | _, _ => none

/-- What the SFU passes to the converter for an element (R309 to R311); `tight` for FP32 with ROUND 0. -/
def sfuVal (tight : Bool) (code : Nat) (x y p : Val) : Val :=
  match sfuExact code x y p with
  | some v => v
  | none => match sfuReal code x.dy with
    | some (r, _) =>
      let v := near32 code x.dy ⟨0, 0⟩ r
      if tight then keepUlp r v else v
    | none => Val.ofDy (inUnit code x.dy)

/-- The functions that the KZ-520 computes as a single FP32 operation (Table 16-6). -/
def singleOp (code : Nat) : Bool := code == 0x0B || (0x10 ≤ code && code ≤ 0x15)

/-- A result in compatibility mode before the converter, so that what is written lies within 2 ulp of the
destination (R320; log entry 10). -/
def kzNear (key : List Int) (code : Nat) (dst : Fmt) (y : Dy) : Val :=
  let b : Int := 3 * 2 ^ 39
  Val.ofDy (y.add ⟨max (-b) (min b (Config.kz520 code key)), dst.ulpAt y - 40⟩)

/-- What the SFU passes to the converter in compatibility mode. -/
def sfuCompat (code : Nat) (dst : Fmt) (x y p : Val) : Val :=
  if singleOp code then toFp32 ((sfuExact code x y p).getD (.nan false))
  else match x with
    | .num d => match sfuReal code d with
      | some (r, _) => kzNear [d.m, d.e] code dst r
      | none => .nan false
    | _ => (sfuExact code x y p).getD (.nan false)

/-- A value of which the spec says nothing: a free one. -/
def anyVal (t : Int) : Val :=
  if t % 4 = 0 then .nan false else if t % 4 = 1 then .inf false else if t % 4 = 2 then .inf true else Val.ofDy ⟨t, 0⟩

/-- One rotated pair of ROPE (R309, Table 16-2) at position `pos`, pair `i` of a vector of `d` elements;
at angle 0 each element stays as it is (log entry 124). -/
def rope (tight : Bool) (a b : Val) (pos : Int) (i d : Nat) (base : Dy) : Val × Val :=
  if pos = 0 then (a, b)
  else if a.isNan || b.isNan then (.nan false, .nan false)
  else
    let x := a.dy
    let y := b.dy
    if a.isInf || b.isInf then
      (anyVal (Config.sfuValue 0x10E x.m pos i d), anyVal (Config.sfuValue 0x20E x.m pos i d))
    else
      let ex := -(lnFx base * (2 * i : Nat)) / (d : Nat)
      let ang := (Dy.ofInt pos).mul (expFx ex)
      if (Dy.ofInt (2 ^ 20)).lt ang.abs then
        let n := sqrtDy ((x.mul x).add (y.mul y))
        (Val.ofDy (n.mul (inUnit 0x0E (x.add ang))), Val.ofDy (n.mul (inUnit 0x30E (y.add ang))))
      else
        let (sn, cs) := sinCosFx ang.fx
        let u := (x.mul (ofFx cs)).sub (y.mul (ofFx sn))
        let v := (x.mul (ofFx sn)).add (y.mul (ofFx cs))
        let (p, q) := (near32 0x0E x (y.add ang) u, near32 0x30E y (x.add ang) v)
        if tight then (keepUlp u p, keepUlp v q) else (p, q)

end Sys2Proof.Machine
end

