-- ==== Sys2Proof/Machine/OpFrame.lean ====
section
/-! DEFINITION. The frame of an operation row: which descriptor runs, whether its operands can be reached (R189, R191, R219, R241), the values of a tensor (R278, R279), writing a destination (R280, R284), and what its execution charges (Table 10-6). -/
namespace Sys2Proof.Machine
open Sys2Proof

/-! ### Regions -/

/-- The rows of a tensor as address and bytes, and its packed scales. -/
def Tensor.area (t : Tensor) : List (Nat × Nat) :=
  ((List.range t.shape.tail.prod).map fun n =>
    (t.base + ((coords t.shape.tail n).zip t.strides.tail |>.map fun p => p.1 * p.2 * 8).sum, t.row)) ++
  (if isMx t.fmt then [(t.scale, t.count / 32)] else [])

/-! ### The descriptor an operation row carries out -/

/-- One descriptor that has been dispatched: its stream, job, index, block and run. -/
structure Op where
  x : Stream
  j : Job
  d : Nat
  b : Block
  r : Run

/-- A dispatched descriptor with its stream and job, as the reread at dispatch found it (R190). -/
def State.opOf (s : State) (i d : Nat) : Option Op :=
  match s.stream? i with
  | none => none
  | some x => match x.head?, s.runAt i d with
    | some j, some r => some { x := x, j := j, d := d, b := r.desc, r := r }
    | _, _ => none

/-- The dispatched descriptor of a row: it holds half-plains whose Plains are in RUN, its operation has not been carried
out, and no reset of its partition has begun. -/
def State.op? (s : State) (i d op : Nat) : Option Op :=
  (s.opOf i d).filter fun o => o.r.op == op && !o.r.done && !o.r.hps.isEmpty && (s.part o.x.owner).step == 0 &&
    o.r.hps.all (fun h => (s.plain (h / 2)).state == .run)

/-- A tensor that a field of the descriptor names; `off` 8 is DST. -/
def State.opTensor (_ : State) (o : Op) (off : Nat) : Tensor := o.r.tensor off

/-! ### Operands within reach -/

/-- Half-plains whose stores a local range lies in. -/
def storeHalves (l : List (Nat × Nat)) : List Nat :=
  (l.filterMap fun r => if storeBase ≤ r.1 && r.1 < affineBase then some (keyHalf r.1) else none).dedup

/-- The granules of another chip that a store fills only in part: their other bytes are read first (log entry 27). -/
def edges (r : Nat × Nat) : List (Nat × Nat) :=
  (if r.1 % 64 ≠ 0 then [(r.1 / 64 * 64, 64)] else []) ++
  (if (r.1 + r.2) % 64 ≠ 0 then [((r.1 + r.2) / 64 * 64, 64)] else [])

/-- What stands between a descriptor and its execution. -/
inductive Reach where
  | go
  | hold (s : State)
  | fault (cause : Nat)

/-- Whether the operands can be read and the destinations written (Table 9-7): a local access that is not allowed, a
lost chip, a store of a Plain in RET (woken first, R61), bytes of another chip that are still to come, poison. -/
def State.reach (s : State) (o : Op) (srcs dsts : List (Nat × Nat)) : Reach :=
  let loc (l : List (Nat × Nat)) := l.filter fun r => s.isLocal r.1
  let all := srcs ++ dsts
  let need := srcs ++ dsts.flatMap edges
  let ret := (storeHalves ((loc all).map fun r => (vLocal r.1, r.2))).filter fun h => (s.plain (h / 2)).state == .ret
  if (loc all).any (fun r => !rangeOk s o.x.owner (vLocal r.1) r.2) then .fault 0x41
  else if all.any (fun r => !s.isLocal r.1 && s.isLost (vChip r.1)) then .fault 0x43
  else if !ret.isEmpty then .hold (ret.foldl (fun s h => s.wakePlain (h / 2)) s)
  else if (loc srcs).any (fun r => s.anyPoison (vLocal r.1) r.2) then .fault 0x44
  else if need.any (fun r => !(s.vMissing r.1 r.2).isEmpty) then
    .hold (need.foldl (fun s r => s.fetch o.x.owner r.1 r.2 (some (o.x.index, o.d))) s)
  else .go

/-! ### What an execution leaves -/

/-- Bytes of regions at this chip's Basins, and on other chips. -/
def State.basinBytes (s : State) (l : List (Nat × Nat)) : Nat :=
  (l.map fun r => if s.isLocal r.1 && (localKey s (vLocal r.1)).any (affineBase ≤ ·) then r.2 else 0).sum
def State.passBytes (s : State) (l : List (Nat × Nat)) : Nat := (l.map fun r => if s.isLocal r.1 then 0 else r.2).sum

/-- Slots owned by DEVICE that a store of a job of stream `i` reached (R137). -/
def State.noteSlots (s : State) (f i job : Nat) (l : List (Nat × Nat)) : State :=
  s.updFn f fun x => { x with windows := x.windows.map fun w =>
    (if w.mapped then
      { w with slots := w.slots.mapIdx fun k y =>
          (if y.owner == 2 && l.any (fun r => s.isLocal r.1 && decide (vLocal r.1 < w.slotAddr k + w.slotSize) &&
              decide (w.slotAddr k < vLocal r.1 + r.2)) then ({ y with wrote := (i, job) :: y.wrote.filter (· != (i, job)) } : Slot) else y) }
     else w : Window) }

/-- An operation carried out: what it moved is charged (Table 10-6), the slots it wrote are noted, bytes of other
chips that it read are not kept. -/
def State.opDone (s : State) (o : Op) (srcs dsts : List (Nat × Nat)) : State :=
  let i := o.x.index
  let (e, s) := s.free
  let s := ((s.count i 4 (s.basinBytes (srcs ++ dsts))).count i 5 (s.passBytes (srcs ++ dsts))).count i 7 (Config.energy e)
  let s := (s.noteSlots (o.x.owner + 1) i o.j.number dsts).dropViews ((srcs ++ dsts).filter fun r => !s.isLocal r.1)
  { s with sched := { s.sched with runs := s.sched.runs.map fun r =>
      (if r.s == i && r.d == o.d then { r with done := true } else r) } }

/-! ### A descriptor cut short (R191, R231, R232) -/

/-- The bursts of a store: whole granules of one 4 KiB piece each (Table 11-3), as first granule and number of granules. -/
def bursts (areas : List (Nat × Nat)) : List (Nat × Nat) :=
  areas.flatMap fun a =>
    let gs := granules a.1 a.2
    ((gs.map (· / 4096)).dedup).map fun k =>
      let m := gs.filter (· / 4096 == k)
      (m.headD 0, m.length)

/-- The ranges that the first `n` granules of a list of bursts take. -/
def prefixOf : Nat → List (Nat × Nat) → List (Nat × Nat)
  | _, [] => []
  | n, b :: r => if n = 0 then [] else (b.1, 64 * min n b.2) :: prefixOf (n - b.2) r

/-- The burst that a cut after `n` granules falls in: one of whose granules some have landed, or, where `begun`, one that has
begun with none. -/
def burstAt (begun : Bool) : Nat → List (Nat × Nat) → Option (Nat × Nat)
  | _, [] => none
  | n, b :: r => if n < b.2 then (if begun || 0 < n then some b else none) else burstAt begun (n - b.2) r

/-- A granule of this chip as another state holds it, its poison included. -/
def State.landGranule (s t : State) (g : Nat) : State :=
  let s := s.wr (vLocal g) (t.rd (vLocal g) 64)
  match localKey s (vLocal g) with
  | some k => { s with mem := s.mem.mark k (t.mem.poisoned k) }
  | none => s

/-- Ranges landed with the values they have in `t`, the state after the whole operation: granules of this chip as they are there,
those of another chip by WR_REQ. -/
def State.land (s t : State) (p : Nat) (l : List (Nat × Nat)) : State :=
  l.foldl (fun s r =>
    if s.isLocal r.1 then (granules r.1 r.2).foldl (fun s g => s.landGranule t g) s
    else s.vWr p r.1 (t.vRd r.1 r.2) none) s

/-- The kind of the master that writes an operation's destination (R232; log entry 145): the DMA engine for COPY and KV_APPEND,
the Pass inbound agents for COLL, the load/store units of the engines for the others. -/
def masterKind (op : Nat) : Nat := if op = oCopy || op = oKvAppend then 0 else if op = oColl then 2 else 1

/-- EV_BURST_PREFIX for a burst of a stream that a reset cut (R232). -/
def State.burstCut (s : State) (o : Op) (b : Option (Nat × Nat)) : State :=
  match b with
  | some (g, n) => s.emit [o.x.owner + 1] EV.burstPrefix 2 o.x.handle (pay [(0, g), (8, n), (10, masterKind o.r.op)]) false (some o.x.owner)
  | none => s

/-- What a descriptor cut short leaves (R191, R231): a prefix of its bursts has landed by whole granules, each with its new value;
how long the prefix is, and whether a burst was under way at its end, is open (log entry 3). Slots it reached are noted. Where it
`ends` there, its bytes are charged, as many of those it read as is open (Table 10-6); one that goes on later is charged as it is
carried out. `t` is the state after the whole operation; the answer holds the burst that was cut. -/
def State.cutStore (s t : State) (o : Op) (srcs dsts : List (Nat × Nat)) (ends : Bool) : State × Option (Nat × Nat) :=
  let i := o.x.index
  let bs := bursts dsts
  let (v, s) := s.free
  let n := v / 2 % ((bs.map (·.2)).sum + 1)
  let l := prefixOf n bs
  let cut := burstAt (v % 2 == 1) n bs
  let s := (s.land t o.x.owner l).noteSlots (o.x.owner + 1) i o.j.number (l ++ (cut.map fun b => (b.1, 64 * b.2)).toList)
  if !ends then (s, cut) else
  let (e, s) := s.free
  let s := s.count i 4 (s.basinBytes l + e % (s.basinBytes srcs + 1))
  let s := s.count i 5 (s.passBytes l + e / 2 ^ 64 % (s.passBytes srcs + 1))
  (s.count i 7 (Config.energy e), cut)

/-- A descriptor that faults (R191): what it had written is a prefix, the burst that the reset of its masters cuts is reported, its
job faults, and dispatch decisions follow. -/
def State.opFault (s : State) (o : Op) (cause : Nat) (srcs dsts : List (Nat × Nat)) (t : State) : State :=
  let ok := dsts.filter fun r => if s.isLocal r.1 then rangeOk s o.x.owner (vLocal r.1) r.2 else !s.isLost (vChip r.1)
  let (s, cut) := s.cutStore t o srcs ok true
  ((s.burstCut o cut).faultJob o.x.index cause o.d).advance

/-- The frame of an operation row: the dispatched descriptor's sources and destinations, a fault cause of its own that
comes before any write, and its effect once the operands are within reach. -/
def State.operate (s : State) (i d op : Nat) (regions : State → Op → List (Nat × Nat) × List (Nat × Nat))
    (eff : State → Op → State) (blocked : State → Op → Option Nat := fun _ _ => none) : State :=
  match s.op? i d op with
  | none => s
  | some o =>
    let (srcs, dsts) := regions s o
    match blocked s o with
    | some c => s.opFault o c srcs [] s
    | none => match s.reach o srcs dsts with
      | .fault c => s.opFault o c srcs dsts (eff s o)
      | .hold t => t
      | .go => (eff s o).opDone o srcs dsts

/-! ### Values of a tensor -/

/-- The element at given coordinates, its block scale folded in (R278, R279). -/
def State.elem (s : State) (t : Tensor) (c : List Nat) : Val :=
  let b := t.bitOff c
  let w := fmtBits t.fmt
  let v := elemVal t.fmt (bits (s.vNat (t.base + b / 8) ((b % 8 + w + 7) / 8)) (b % 8) w)
  if isMx t.fmt then underScale (s.vNat (t.scaleAddr c) 1) v else v

/-- Every element, in the order of its linear index. -/
def State.vals (s : State) (t : Tensor) : List Val := (List.range t.count).map fun n => s.elem t (coords t.shape n)

/-- The largest finite value of a format code (Table 14-2, R275). -/
def fmtTop (code : Nat) : Dy :=
  match fmtOf code with
  | some f => f.mag f.maxCode
  | none => if code = 0x15 then ⟨127, -6⟩ else if code = 0x20 then ⟨127, 0⟩ else ⟨2 ^ 31 - 1, 0⟩

/-- What stands in for an infinity of a source element in case 3b of Table 14-4: the format's largest finite value, times
the block's scale. -/
def State.topAt (s : State) (t : Tensor) (c : List Nat) : Dy :=
  if isMx t.fmt then (fmtTop t.fmt).scale ((s.vNat (t.scaleAddr c) 1 : Int) - 127) else fmtTop t.fmt

/-- The largest finite ACC52 value: the source's format where an accumulator feeds the quantiser. -/
def accTop : Dy := Fmt.acc52.mag Fmt.acc52.maxCode

/-! ### Writing a destination -/

/-- The random value of element `n` of a descriptor under ROUND 1 (R280, R282). -/
def Op.rand (o : Op) (n : Nat) : Option Nat := if dRound o.b = 1 then some (srRand o.r.seed n) else none

/-- Elements packed into bytes, lowest first (R278). -/
def packBits (w : Nat) (l : List Nat) : List Byte :=
  leBytes ((l.length * w + 7) / 8) (l.foldr (fun c a => c + a * 2 ^ w) 0)

/-- Rows of a destination written from its elements' codes. -/
def State.putRows (s : State) (o : Op) (t : Tensor) (codes : List Nat) : State :=
  (List.range t.shape.tail.prod).foldl (fun s n =>
    let a := t.base + ((coords t.shape.tail n).zip t.strides.tail |>.map fun p => p.1 * p.2 * 8).sum
    s.vWr o.x.owner a (packBits (fmtBits t.fmt) ((codes.drop (n * t.dim 0)).take (t.dim 0)))
      (some (o.x.index, o.d))) s

/-- A destination written through the converter, or block by block through the quantiser, which counts what it
flushed (R286). `idx` is the linear index that an element's random value takes, `top` what stands for its infinity. -/
def State.putTensor (s : State) (o : Op) (t : Tensor) (vs : List Val) (top : Nat → Dy) (idx : Nat → Nat := id) : State :=
  let sat := dSat o.b
  if isMx t.fmt then
    let blocks := (cutEvery 32 vs.length (vs.mapIdx fun n v => ({ v := v, r := o.rand (idx n), big := top n } : MxIn))).map
      (mxBlock t.fmt sat)
    let s := s.putRows o t (blocks.flatMap (·.2.1))
    let s := s.vWr o.x.owner t.scale (blocks.map fun b => BitVec.ofNat 8 b.1) (some (o.x.index, o.d))
    s.count o.x.index 8 (blocks.map (·.2.2)).sum
  else s.putRows o t (vs.mapIdx fun n v => convert t.fmt sat (o.rand (idx n)) v)

/-- EV_SOFTMAX_RANGE, once for a job (R314). -/
def State.softmaxRange (s : State) (o : Op) : State :=
  match (s.stream? o.x.index).bind (·.head?) with
  | none => s
  | some j =>
    if j.softmax then s
    else (s.updStream o.x.index fun x => x.updHead fun j => { j with softmax := true }).emit [o.x.owner + 1]
      EV.softmaxRange 2 o.x.handle (pay [(0, j.number % 2 ^ 32), (4, o.d)]) false (some o.x.owner)

end Sys2Proof.Machine
end

