-- ==== Sys2Proof/Machine/MatOps.lean ====
section
/-! DEFINITION. The tensor-core operations: the operand panels (R289), MATMUL (R302 to R304), CONV with its pooling (R342 to R351) and TCONV (R345, R346). -/
namespace Sys2Proof.Machine
open Sys2Proof

/-- What the open combination order of a descriptor depends on besides its operands: the descriptor and its half-plain
count (R298). -/
def Op.key (o : Op) : Nat := o.b.toNat * 64 + o.r.hps.length

/-- Regions of the tensors that the body fields at the given offsets name, those of 0 left out. -/
def State.fieldAreas (s : State) (o : Op) (offs : List Nat) : List (Nat × Nat) :=
  offs.flatMap fun k => if dField o.b k = 0 then [] else (s.opTensor o k).area

/-! ### Operand panels (R289) -/

/-- A store line of a skewed panel of `k` steps: lane i holds its step t at line t + i, and zero before its first step and after its
last. -/
def panelLine (lane : Nat → Nat → List Val) (k l : Nat) : List (List Val) :=
  (List.range 128).map fun i => if i ≤ l && l < i + k then lane i (l - i) else [.zero false]

/-- The k + 127 lines of a panel. -/
def panelLines (lane : Nat → Nat → List Val) (k : Nat) : List (List (List Val)) := (List.range (k + 127)).map (panelLine lane k)

/-- Reduction indices of one step of a cell: two in the 4-bit class (Table 15-1). -/
def stepLen (chunk : Nat) : Nat := if chunk = 64 then 2 else 1

/-- The panels that an operation leaves in the store of a half-plain, in place of those of the operation before it. -/
def State.putPanels (s : State) (h k : Nat) (a b : Nat → Nat → List Val) : State :=
  { s with mem := { s.mem with panels := s.mem.panels.filter (·.half != h) ++
      [{ half := h, b := false, lines := panelLines a k }, { half := h, b := true, lines := panelLines b k }] } }

/-- Panels of an operation whose reductions the spec does not lay out over lanes (CONV, TCONV, ATTN): skewed and padded as every
panel, of an open number of steps up to `top`, with open operands of the two formats (log entry 159). -/
def State.openPanels (s : State) (hs : List Nat) (fa fb top : Nat) : State :=
  let n := s.fresh
  let (_, s) := s.free
  let u := stepLen ((chunkLen fa fb).getD 1)
  let lane (h : Nat) (b : Bool) (i t : Nat) : List Val :=
    (List.range u).map fun q => elemVal (if b then fb else fa) (Config.panelCode n h b i (t * u + q))
  hs.foldl (fun s h => s.putPanels h (Config.panelSteps n h % top + 1) (lane h false) (lane h true)) s

/-! ### MATMUL -/

def matmulRegions (s : State) (o : Op) : List (Nat × Nat) × List (Nat × Nat) :=
  (s.fieldAreas o [16, 24, 32], s.fieldAreas o [8])

/-- The index of a batch in a tensor that may have a batch of 1 (R303). -/
def batchIn (t : Tensor) (b : Nat) : Nat := if t.dim 2 ≤ 1 then 0 else b

/-- One element of DST before conversion (R302). -/
def State.matmulElem (s : State) (o : Op) (a b c dst : Tensor) (n : Nat) : Val :=
  let w := coords dst.shape n
  let (j, i, bt) := (w.getD 0 0, w.getD 1 0, w.getD 2 0)
  let kmajor := o.b.bit 40 0
  let wide := isWide a.fmt b.fmt
  let ps := (List.range (a.dim 0)).map fun k =>
    products wide (s.elem a [k, i, batchIn a bt]) (s.elem b (if kmajor then [k, j, batchIn b bt] else [j, k, batchIn b bt]))
  let init : Val := if dField o.b 32 = 0 then .zero false else s.elem c [j, i, batchIn c bt]
  reduce o.key n init (chunksOf ((chunkLen a.fmt b.fmt).getD 1) ps)

/-- A reduction operand of a lane: elements `t · u` on of a row or column, zeros beyond the tensor (R289, R290). -/
def stepOf (u k : Nat) (inside : Bool) (at' : Nat → Val) (t : Nat) : List Val :=
  (List.range u).map fun q => if inside && t * u + q < k then at' (t * u + q) else .zero false

/-- The panels of the output tile that a half-plain ended with, which the open division of the tiles decides (R298; log entry
159). -/
def State.matmulPanels (s : State) (o : Op) (a b dst : Tensor) (n h : Nat) : (Nat → Nat → List Val) × (Nat → Nat → List Val) :=
  let k := a.dim 0
  let u := stepLen ((chunkLen a.fmt b.fmt).getD 1)
  let (tn, tm) := ((dst.dim 0 + 127) / 128, (dst.dim 1 + 127) / 128)
  let e := Config.panelTile n h % (tn * tm * max 1 (dst.count / (dst.dim 0 * dst.dim 1)))
  let (j0, i0, bt) := (e % tn * 128, e / tn % tm * 128, e / tn / tm)
  (fun i t => stepOf u k (i0 + i < dst.dim 1) (fun x => s.elem a [x, i0 + i, batchIn a bt]) t,
   fun j t => stepOf u k (j0 + j < dst.dim 0)
     (fun x => s.elem b (if o.b.bit 40 0 then [x, j0 + j, batchIn b bt] else [j0 + j, x, batchIn b bt])) t)

/-- The operand panels written into the stores of the descriptor's half-plains (R289). -/
def State.feedMatmul (s : State) (o : Op) (a b dst : Tensor) : State :=
  let n := s.fresh
  let u := stepLen ((chunkLen a.fmt b.fmt).getD 1)
  o.r.hps.foldl (fun t h => t.putPanels h ((a.dim 0 + u - 1) / u) (s.matmulPanels o a b dst n h).1 (s.matmulPanels o a b dst n h).2)
    s.free.2

/-- The product, its operands fed by panels (R289), every element of C read before the same element of DST is written (R304). -/
def effMatmul (s : State) (o : Op) : State :=
  let (a, b, c, dst) := (s.opTensor o 16, s.opTensor o 24, s.opTensor o 32, s.opTensor o 8)
  (s.feedMatmul o a b dst).putTensor o dst ((List.range dst.count).map (s.matmulElem o a b c dst)) (fun _ => accTop)

/-- MATMUL. -/
def execMatmul (i d : Nat) (s : State) : Host.Outcome State Fault Refusal :=
  run State.core s fun s => s.operate i d oMatmul matmulRegions effMatmul

/-! ### Images -/

/-- A sample of an image by count, channel, row and column. -/
def pixelAt (t : Tensor) (n c y x : Nat) : List Nat := [c % t.dim 0, x, y, c / t.dim 0, n]
def State.pixel (s : State) (t : Tensor) (n c y x : Nat) : Val := s.elem t (pixelAt t n c y x)

/-! ### CONV -/

/-- The image samples that the slices of a dispatched CONV or TCONV fetch under their plans, what its resumptions fetched again
included (R349 to R352). -/
def planRegions (o : Op) : List (Nat × Nat) :=
  let src := o.r.tensor 16
  let (r, c) := axesOf o.b src (o.r.tensor 8)
  (o.r.plan.flatMap (·.reads r c) ++
    o.r.cuts.flatMap fun n => (o.r.plan.mapIdx fun k p => p.again r c (Config.cutStripe n k)).flatten).flatMap src.pixels ++ src.scales

/-- The image by its plans, the weights and BIAS once, and DST (R350; log entry 158). -/
def convRegions (s : State) (o : Op) : List (Nat × Nat) × List (Nat × Nat) :=
  (planRegions o ++ s.fieldAreas o [24, 32], s.fieldAreas o [8])

/-- BIAS[co], or +0 (R343). -/
def State.biasAt (s : State) (o : Op) (co : Nat) : Val :=
  if dField o.b 32 = 0 then .zero false else s.elem (s.opTensor o 32) [co]

/-- The taps of a window that lie inside the image, with their coordinates (R347, R348). -/
def inside (src : Tensor) (ys xs : List Int) : List (Nat × Nat) :=
  ys.flatMap fun (y : Int) => xs.filterMap fun (x : Int) =>
    if 0 ≤ y ∧ y < (src.imgH : Int) ∧ 0 ≤ x ∧ x < (src.imgW : Int) then some (y.toNat, x.toNat) else none

/-- What MAX writes where no tap lies inside the image (R348); for an MX destination the most negative element, its
block scale chosen as for any value (log entry 124). -/
def noTap (fmt : Nat) : Val :=
  match fmtOf fmt with
  | some f => if f.kind = 0 then .inf true else .num (fmtTop fmt).neg
  | none => if fmt = 0x15 then .num (fmtTop fmt).neg else .num ((fmtTop fmt).neg.sub Dy.one)

/-- A quotient by a count, formed within one FP32 ulp (R336, R347). -/
def quotient (code : Nat) (n d : Dy) : Val :=
  if n.m = 0 then .zero false else near32 code n d (quoDy 400 n d)

/-- One element of DST of a CONV before conversion. -/
def State.convElem (s : State) (o : Op) (c : Conv) (src wt dst : Tensor) (n : Nat) : Val :=
  let w := coords dst.shape n
  let (x, y, im) := (w.getD 1 0, w.getD 2 0, w.getD 4 0)
  let co := w.getD 3 0 * dst.dim 0 + w.getD 0 0
  let ys := taps c.kh c.dh c.sh c.padT y
  let xs := taps c.kw c.dw c.sw c.padL x
  let sample (ch : Nat) (u v : Int) : Val :=
    match padAt c.padMode src.imgH u, padAt c.padMode src.imgW v with
    | some a, some b => s.pixel src im ch a b
    | _, _ => .zero false
  match c.pool with
  | 2 =>
    match (inside src ys xs).map fun p => s.pixel src im co p.1 p.2 with
    | [] => noTap dst.fmt
    | v :: r => r.foldl Val.maxOf (if v.isNan then .nan false else v)
  | 1 =>
    let ps := ys.flatMap fun u => xs.map fun v => products (isWide src.fmt src.fmt) (sample co u v) (.num Dy.one)
    let r := reduce o.key n (s.biasAt o co) (chunksOf ((chunkLen src.fmt src.fmt).getD 32) ps)
    let k := if c.exclude then (inside src ys xs).length else c.kh * c.kw
    if k = 0 then .zero false
    else match r with
      | .num q => quotient 0x110 q (Dy.ofInt k)
      | v => v
  | _ =>
    let cg := src.channels / c.groups
    let g := co * c.groups / dst.channels
    let ps := (ys.zipIdx).flatMap fun u => (xs.zipIdx).flatMap fun v => (List.range cg).map fun ci =>
      products (isWide src.fmt wt.fmt) (sample (g * cg + ci) u.1 v.1) (s.elem wt [ci, v.2, u.2, co])
    reduce o.key n (s.biasAt o co) (chunksOf ((chunkLen src.fmt wt.fmt).getD 1) ps)

/-- What stands in the quantiser for an infinity that MAX takes from its source (Table 14-4, case 3b): by the first
tap of the window that holds one. -/
def State.maxTop (s : State) (c : Conv) (src dst : Tensor) (n : Nat) : Dy :=
  let w := coords dst.shape n
  let co := w.getD 3 0 * dst.dim 0 + w.getD 0 0
  let win := inside src (taps c.kh c.dh c.sh c.padT (w.getD 2 0)) (taps c.kw c.dw c.sw c.padL (w.getD 1 0))
  match win.find? fun p => (s.pixel src (w.getD 4 0) co p.1 p.2).isInf with
  | some p => s.topAt src (pixelAt src (w.getD 4 0) co p.1 p.2)
  | none => fmtTop src.fmt

def effConv (s : State) (o : Op) : State :=
  let (src, wt, dst) := (s.opTensor o 16, s.opTensor o 24, s.opTensor o 8)
  let c := convOf o.b
  let wf := if c.pool = 1 then src.fmt else wt.fmt
  let t := if c.pool = 2 then s else
    s.openPanels (o.r.hps.take o.r.plan.length) src.fmt wf (c.kh * c.kw * (src.channels / c.groups))
  t.putTensor o dst ((List.range dst.count).map (s.convElem o c src wt dst))
    (fun n => if c.pool = 2 then s.maxTop c src dst n else accTop)

/-- CONV: convolution, average or maximum pooling. -/
def execConv (i d : Nat) (s : State) : Host.Outcome State Fault Refusal :=
  run State.core s fun s => s.operate i d oConv convRegions effConv

/-! ### TCONV -/

/-- Neighbours and weights of BILINEAR on one axis: the coordinate (2·out + 1 − S) / 2S limited to the axis (R346). -/
def bilinear (stride len out : Nat) : List (Nat × Dy) :=
  let top : Int := 2 * stride * ((len : Int) - 1)
  let v : Int := max 0 (min top (2 * out + 1 - stride))
  let i := (v / (2 * stride)).toNat
  let f := v % (2 * stride)
  let e : Int := -((2 * stride).log2 : Int)
  if f = 0 then [(i, Dy.one)] else [(i, ⟨2 * stride - f, e⟩), (i + 1, ⟨f, e⟩)]

/-- One element of DST of a TCONV before conversion. -/
def State.tconvElem (s : State) (o : Op) (c : Conv) (src wt dst : Tensor) (n : Nat) : Val :=
  let w := coords dst.shape n
  let (x, y, im) := (w.getD 1 0, w.getD 2 0, w.getD 4 0)
  let co := w.getD 3 0 * dst.dim 0 + w.getD 0 0
  match c.upsample with
  | 1 => s.pixel src im co (y / c.sh) (x / c.sw)
  | 2 =>
    let ps := (bilinear c.sh src.imgH y).flatMap fun u => (bilinear c.sw src.imgW x).map fun v =>
      (s.pixel src im co u.1 v.1).mul (.num (u.2.mul v.2))
    reduce o.key n (s.biasAt o co) [chunkSum ps]
  | _ =>
    let cg := src.channels / c.groups
    let g := co * c.groups / dst.channels
    let ps := (landing c.kh c.dh c.sh c.padT src.imgH y).flatMap fun u =>
      (landing c.kw c.dw c.sw c.padL src.imgW x).flatMap fun v => (List.range cg).map fun ci =>
        products (isWide src.fmt wt.fmt) (s.pixel src im (g * cg + ci) u.2 v.2) (s.elem wt [ci, v.1, u.1, co])
    reduce o.key n (s.biasAt o co) (chunksOf ((chunkLen src.fmt wt.fmt).getD 1) ps)

/-- What stands in the quantiser for an infinity that NEAREST copies from its source (Table 14-4, case 3b). -/
def State.nearestTop (s : State) (c : Conv) (src dst : Tensor) (n : Nat) : Dy :=
  let w := coords dst.shape n
  s.topAt src (pixelAt src (w.getD 4 0) (w.getD 3 0 * dst.dim 0 + w.getD 0 0) (w.getD 2 0 / c.sh) (w.getD 1 0 / c.sw))

def effTconv (s : State) (o : Op) : State :=
  let (src, wt, dst) := (s.opTensor o 16, s.opTensor o 24, s.opTensor o 8)
  let c := convOf o.b
  let t := match c.upsample with
    | 1 => s
    | 2 => s.openPanels (o.r.hps.take o.r.plan.length) src.fmt src.fmt 4
    | _ => s.openPanels (o.r.hps.take o.r.plan.length) src.fmt wt.fmt (c.kh * c.kw * (src.channels / c.groups))
  t.putTensor o dst ((List.range dst.count).map (s.tconvElem o c src wt dst))
    (fun n => if c.upsample = 1 then s.nearestTop c src dst n else accTop)

/-- TCONV: transposed convolution, or fixed upsampling. -/
def execTconv (i d : Nat) (s : State) : Host.Outcome State Fault Refusal :=
  run State.core s fun s => s.operate i d oTconv convRegions effTconv

end Sys2Proof.Machine
end

