-- ==== Sys2Proof/Machine/SfuOps.lean ====
section
/-! DEFINITION. The operations of the SFU and the copying ones: SFU (R308 to R311), SOFTMAX (R312 to R316), NORM (R317 to R319, R479), their compatibility mode (R320), QUANT (R287) and COPY (R180). -/
namespace Sys2Proof.Machine
open Sys2Proof

/-- The layout in which ulps of a destination are counted (R320). -/
def dstFmt (t : Tensor) : Fmt := (fmtOf t.fmt).getD Fmt.fp32

/-- Regions of an operation whose sources stand in the fields at the given offsets. -/
def regionsOf (offs : List Nat) (s : State) (o : Op) : List (Nat × Nat) × List (Nat × Nat) :=
  (s.fieldAreas o offs, s.fieldAreas o [8])

/-! ### SFU -/

/-- One element of an SFU result before conversion (R309). -/
def State.sfuElem (s : State) (o : Op) (a b dst : Tensor) (n : Nat) : Val :=
  let c := coords dst.shape n
  let f := o.b.nat 32 0 8
  let p := Fmt.fp32.decode (o.b.nat 36 0 32)
  let tight := dst.fmt == 0x01 && dRound o.b == 0
  if f = 0x0E then
    let i := c.headD 0 / 2
    let q := rope tight (s.elem a ((2 * i) :: c.tail)) (s.elem a ((2 * i + 1) :: c.tail))
      (match s.elem b (0 :: c.tail) with | .num d => d.m * 2 ^ d.e.toNat | _ => 0) i (dst.dim 0) p.dy
    if c.headD 0 % 2 = 0 then q.1 else q.2
  else
    let y : Val := if dField o.b 24 = 0 then .zero false else s.elem b c
    if o.b.bit 33 0 then sfuCompat f (dstFmt dst) (s.elem a c) y p else sfuVal tight f (s.elem a c) y p

def effSfu (s : State) (o : Op) : State :=
  let (a, b, dst) := (s.opTensor o 16, s.opTensor o 24, s.opTensor o 8)
  s.putTensor o dst ((List.range dst.count).map (s.sfuElem o a b dst)) (fun n => s.topAt a (coords dst.shape n))

/-- SFU. -/
def execSfu (i d : Nat) (s : State) : Host.Outcome State Fault Refusal :=
  run State.core s fun s => s.operate i d oSfu (regionsOf [16, 24]) effSfu

/-! ### SOFTMAX -/

/-- Pairs (2m, 2m + 1) of a level added; an odd one out meets a leaf of +0 (R313). -/
def pairUp : List Val → List Val
  | a :: b :: r => combineIn Fmt.sum a b :: pairUp r
  | l => l

/-- `n` levels of the tree. -/
def treeSum : Nat → List Val → Val
  | 0, l => l.headD (.zero false)
  | n + 1, l => treeSum n (pairUp l)

/-- The sum of a row: a tree of ten levels in each segment of 1,024, the segments folded in order (R313). -/
def rowSum (l : List Val) : Val :=
  ((cutEvery 1024 l.length l).map (treeSum 10)).foldl (combineIn Fmt.sum) (.zero false)

/-- Whether a finite logit is out of range (R314). -/
def beyond (r : Int) (z : Val) : Bool := z.isNum && (Dy.ofInt r).lt z.dy.abs

/-- Items 1 to 4 of R315 (item 2 where `strict`): what governs a row other than its sum. -/
def rowCase (strict : Bool) (zs : List Val) : Option (List Val) :=
  let k := (zs.filter fun z => z == .inf false).length
  if zs.any (·.isNan) then some (zs.map fun _ => .nan false)
  else if strict && zs.any (beyond 1400) then some (zs.map fun _ => .nan false)
  else if 0 < k then
    some (zs.map fun z => if z == .inf false then .num (quoDy 400 Dy.one (Dy.ofInt k)) else .zero false)
  else if zs.all (· == .inf true) then some (zs.map fun _ => .zero false)
  else none

/-- A row of SOFTMAX from its exact logits z (R313 to R315). -/
def softmaxRow (strict : Bool) (zs : List Val) : List Val :=
  match rowCase strict zs with
  | some l => l
  | none =>
    let es := zs.map fun z => match z with
      | .inf _ => (.zero false : Val)
      | z => .num (er32Exp (z.dy.limit 1400))
    match rowSum es with
    | .num t =>
      let r := er32Near (Config.sfuValue 0x101 t.m t.e 0 0) Dy.one t
      es.map fun e => match e with
        | .num x => .num (x.mul r)
        | e => e
    | v => es.map fun _ => v

/-- A row of SOFTMAX in compatibility mode, within 2 ulp of the exact softmax of the rounded logits (R320). -/
def softmaxCompat (dst : Fmt) (zs : List Val) : List Val :=
  match rowCase false zs with
  | some l => l
  | none =>
    let m := (zs.filter fun z => !z.isInf).foldl (fun (a : Option Dy) z => some (match a with
      | none => z.dy
      | some x => x.max z.dy)) none
    let es := zs.map fun z => match z with
      | .inf _ => (⟨0, 0⟩ : Dy)
      | z => expDy (z.dy.sub (m.getD ⟨0, 0⟩))
    let t := es.foldl Dy.add ⟨0, 0⟩
    let key := (zs.map fun z => z.dy.m) ++ zs.map fun z => z.dy.e
    (zs.zip es).mapIdx fun i p => match p.1 with
      | .inf _ => .zero false
      | _ => kzNear ((i : Int) :: key) 0x07 dst (quoDy 400 p.2 t)

def effSoftmax (s : State) (o : Op) : State :=
  let (a, dst) := (s.opTensor o 16, s.opTensor o 8)
  let sc := Fmt.fp32.decode (o.b.nat 28 0 32)
  let strict := o.b.bit 24 0
  let compat := o.b.bit 24 1
  let zs := (s.vals a).map fun x => if compat then toFp32 (x.mul sc) else x.mul sc
  let rows := cutEvery (a.dim 0) zs.length zs
  let out := rows.flatMap fun r => if compat then softmaxCompat (dstFmt dst) r else softmaxRow strict r
  let t := s.putTensor o dst out (fun n => s.topAt a (coords a.shape n))
  if !compat && zs.any (beyond 1400) then t.softmaxRange o else t

/-- SOFTMAX. -/
def execSoftmax (i d : Nat) (s : State) : Host.Outcome State Fault Refusal :=
  run State.core s fun s => s.operate i d oSoftmax (regionsOf [16]) effSoftmax

/-! ### NORM -/

/-- The largest ACC52 value at or below n / d (R318), which no finite row takes out of range. -/
def accFloor (n d : Dy) : Dy := floorQuo 40 Fmt.acc52.emin n d
def accFlr (x : Dy) : Dy := accFloor x Dy.one

/-- n, μ and M2 of a segment or of several. -/
structure Stats where
  n : Nat
  mean : Dy
  m2 : Dy
deriving DecidableEq, Repr

/-- One segment: mean and squared deviation exact, each floored once (R318). -/
def segStats (l : List Dy) : Stats :=
  let n := l.length
  let s := l.foldl Dy.add ⟨0, 0⟩
  let q := (l.map fun x => x.mul x).foldl Dy.add ⟨0, 0⟩
  { n := n, mean := accFloor s (Dy.ofInt n),
    m2 := accFloor (((Dy.ofInt n).mul q).sub (s.mul s)) (Dy.ofInt n) }

/-- Two results merged, each operation floored (R318), taken from left to right (log entry 52). -/
def mergeStats (a b : Stats) : Stats :=
  let n := a.n + b.n
  let dl := accFlr (b.mean.sub a.mean)
  let t := accFloor (accFlr (dl.mul (Dy.ofInt b.n))) (Dy.ofInt n)
  let u := accFloor (accFlr ((accFlr ((accFlr (dl.mul dl)).mul (Dy.ofInt a.n))).mul (Dy.ofInt b.n))) (Dy.ofInt n)
  { n := n, mean := accFlr (a.mean.add t), m2 := accFlr ((accFlr (a.m2.add b.m2)).add u) }

/-- μ and σ² of a row or group (R318). -/
def layerStats (l : List Dy) : Dy × Dy :=
  match (cutEvery 1024 l.length l).map segStats with
  | [] => (⟨0, 0⟩, ⟨0, 0⟩)
  | a :: r =>
    let t := r.foldl mergeStats a
    (t.mean, accFloor t.m2 (Dy.ofInt t.n))

/-- m2 of a row (R318). -/
def rmsStat (l : List Dy) : Dy :=
  let seg := (cutEvery 1024 l.length l).map fun x => accFlr ((x.map fun y => y.mul y).foldl Dy.add ⟨0, 0⟩)
  match seg with
  | [] => ⟨0, 0⟩
  | a :: r => accFloor (r.foldl (fun x y => accFlr (x.add y)) a) (Dy.ofInt l.length)

/-- One normalised element from x − μ (x for RMS) and σ² + EPS, within the bound of R479, or 2 ulp of the
destination in compatibility mode. -/
def normElem (compat : Option Fmt) (x var : Dy) (g b : Val) : Val :=
  match g, b with
  | .num _, .num _ | .zero _, .num _ | .num _, .zero _ | .zero _, .zero _ =>
    let r := quoDy 300 Dy.one (sqrtDy var)
    let p := (x.mul r).mul g.dy
    let y := p.add b.dy
    match compat with
    | some f => kzNear [x.m, x.e, var.m, var.e, g.dy.m, g.dy.e, b.dy.m, b.dy.e] 0x05 f y
    | none =>
      let w := p.abs.add b.dy.abs
      let k : Int := 2 ^ 40 - 1
      let t := Config.sfuValue 0x105 (x.m + var.m * 2 ^ 64) (x.e + var.e) (g.dy.m + b.dy.m * 2 ^ 64) (g.dy.e + b.dy.e)
      Val.ofDy (y.add (w.mul ⟨max (-k) (min k t), -62⟩))
  | _, _ => ((Val.ofDy x).mul g).add b

/-- One row or group normalised (R317, R319). -/
def normRow (kind : Nat) (compat : Option Fmt) (eps : Dy) (xs gs bs : List Val) : List Val :=
  if xs.any (fun x => x.isNan || x.isInf) then xs.map fun _ => .nan false
  else
    let l := xs.map (·.dy)
    let (mu, var) := if kind = 1 then (⟨0, 0⟩, rmsStat l) else layerStats l
    let v := var.add eps
    if v.m ≤ 0 then (xs.zip bs).map (·.2)
    else ((l.zip gs).zip bs).map fun p => normElem compat (p.1.1.sub mu) v p.1.2 p.2

/-- The group of an element of a channel-blocked image: its count and its group of channels (R317). -/
def groupOfElem (t : Tensor) (groups n : Nat) : Nat × Nat :=
  let c := coords t.shape n
  (c.getD 4 0, (c.getD 3 0 * t.dim 0 + c.getD 0 0) / (t.channels / groups))

def effNorm (s : State) (o : Op) : State :=
  let (a, dst) := (s.opTensor o 16, s.opTensor o 8)
  let kind := o.b.nat 40 0 2
  let compat := if o.b.bit 40 2 then some (dstFmt dst) else none
  let eps := (Fmt.fp32.decode (o.b.nat 44 0 32)).dy
  let xs := s.vals a
  let chan (n : Nat) : Nat := let c := coords a.shape n
    if kind = 2 then c.getD 3 0 * a.dim 0 + c.getD 0 0 else c.headD 0
  let gs := (List.range a.count).map fun n => if dField o.b 24 = 0 then (.num Dy.one : Val) else s.elem (s.opTensor o 24) [chan n]
  let bs := (List.range a.count).map fun n => if dField o.b 32 = 0 then (.zero false : Val) else s.elem (s.opTensor o 32) [chan n]
  let out :=
    if kind = 2 then
      let grp := groupOfElem a (o.b.nat 48 0 16)
      let all := (List.range a.count).map grp
      let done := (all.dedup).flatMap fun k =>
        let ns := (List.range a.count).filter fun n => grp n == k
        ns.zip (normRow 2 compat eps (ns.map fun n => xs.getD n (.zero false)) (ns.map fun n => gs.getD n (.zero false))
          (ns.map fun n => bs.getD n (.zero false)))
      (List.range a.count).map fun n => ((done.find? fun p => p.1 == n).map (·.2)).getD (.zero false)
    else
      let w := a.dim 0
      let cut (l : List Val) := cutEvery w l.length l
      ((cut xs).zip ((cut gs).zip (cut bs))).flatMap fun p => normRow kind compat eps p.1 p.2.1 p.2.2
  s.putTensor o dst out (fun n => s.topAt a (coords a.shape n))

/-- NORM. -/
def execNorm (i d : Nat) (s : State) : Host.Outcome State Fault Refusal :=
  run State.core s fun s => s.operate i d oNorm (regionsOf [16, 24, 32]) effNorm

/-! ### QUANT and COPY -/

def effConvert (s : State) (o : Op) : State :=
  let (a, dst) := (s.opTensor o 16, s.opTensor o 8)
  s.putTensor o dst (s.vals a) (fun n => s.topAt a (coords a.shape n))

/-- QUANT. -/
def execQuant (i d : Nat) (s : State) : Host.Outcome State Fault Refusal :=
  run State.core s fun s => s.operate i d oQuant (regionsOf [16]) effConvert

/-- COPY: a conversion, or zero written to every element of DST (Table 9-3). -/
def effCopy (s : State) (o : Op) : State :=
  if o.b.bit 24 0 then
    let dst := s.opTensor o 8
    s.putTensor o dst (List.replicate dst.count (.zero false)) (fun _ => Dy.one)
  else effConvert s o

def execCopy (i d : Nat) (s : State) : Host.Outcome State Fault Refusal :=
  run State.core s fun s => s.operate i d oCopy (regionsOf [16]) effCopy

end Sys2Proof.Machine
end

