-- ==== Sys2Proof/Machine/AttnOps.lean ====
section
/-! DEFINITION. KV_APPEND (R327 to R329) and ATTN (R334 to R339). -/
namespace Sys2Proof.Machine
open Sys2Proof

/-! ### Rows of a pool -/

/-- Addresses and bytes of a row of keys, or of values, at a position: its data and its scales. -/
def State.kvRow (s : State) (m : KvMap) (i l h pos : Nat) (val : Bool) : (Nat × Nat) × Nat × Nat :=
  let k := s.pool m.pool
  let a := k.pageAddr (s.kvPage m i l (pos / k.perPage))
  let j := pos % k.perPage
  ((a + (if val then k.vOff h j else k.kOff h j), k.row), a + (if val then k.vsOff h j else k.ksOff h j), k.scales)

/-- The elements of a row. -/
def State.kvVals (s : State) (m : KvMap) (i l h pos : Nat) (val : Bool) : List Val :=
  let k := s.pool m.pool
  let w := fmtBits k.format
  let ((a, _), sa, _) := s.kvRow m i l h pos val
  (List.range k.dim).map fun c =>
    let v := elemVal k.format (bits (s.vNat (a + c * w / 8) ((c * w % 8 + w + 7) / 8)) (c * w % 8) w)
    if isMx k.format then underScale (s.vNat (sa + c / 32) 1) v else v

/-- A row written from values through the converter or the quantiser, its elements' random values counting from
`base`, and how many the quantiser flushed. -/
def State.putKvRow (s : State) (o : Op) (m : KvMap) (l h pos : Nat) (val : Bool) (vs : List Val) (tops : List Dy)
    (base : Nat) : State :=
  let k := s.pool m.pool
  let ((a, _), sa, _) := s.kvRow m o.x.index l h pos val
  let job := some (o.x.index, o.d)
  if isMx k.format then
    let bl := (cutEvery 32 vs.length (vs.mapIdx fun c v => ({ v := v, r := o.rand (base + c), big := tops.getD c Dy.one } : MxIn))).map
      (mxBlock k.format (dSat o.b))
    let s := s.vWr k.part a (packBits (fmtBits k.format) (bl.flatMap (·.2.1))) job
    let s := s.vWr k.part sa (bl.map fun b => BitVec.ofNat 8 b.1) job
    s.count o.x.index 8 (bl.map (·.2.2)).sum
  else
    s.vWr k.part a (packBits (fmtBits k.format) (vs.mapIdx fun c v => convert k.format (dSat o.b) (o.rand (base + c)) v)) job

/-- `n` positions of one layer written from SRC_K and SRC_V at `pos` (R327): pages made ready first, then every head
row; all that moves at the pool is charged (Table 10-6). `base` is the index that the first key element's random value takes
(R282). -/
def State.append (s : State) (o : Op) (m : KvMap) (l pos : Nat) (ks vs : Tensor) (base : Nat) : State :=
  let n := ks.dim 2
  let k := s.pool m.pool
  let t := s.kvReady o.x.index l pos n
  let t := (List.range n).foldl (fun t p => (List.range k.heads).foldl (fun t h =>
    let at' (src : Tensor) := (List.range k.dim).map fun c => s.elem src [c, h, p]
    let tops (src : Tensor) := (List.range k.dim).map fun c => s.topAt src [c, h, p]
    let off := base + k.dim * (h + k.heads * p)
    let t := t.putKvRow o m l h (pos + p) false (at' ks) (tops ks) off
    t.putKvRow o m l h (pos + p) true (at' vs) (tops vs) (off + n * k.heads * k.dim)) t) t
  t.count o.x.index (if s.isLocal k.backing then 4 else 5) (n * k.posBytes + s.readyBytes o.x.index l pos n)

/-- Why an append to a layer cannot be made: its pool lost with its chip (R341), a position beyond LENGTH or the map
(R325, R327), no page (R328). -/
def State.appendBlocked (s : State) (o : Op) (l pos n : Nat) : Option Nat :=
  match s.kvOf o.x.index with
  | none => some 0x41
  | some m => if (s.pool m.pool).lost then some 0x43 else s.kvBlocked m o.x.index l pos n

/-! ### KV_APPEND -/

/-- POSITION; 0xFFFF_FFFF appends at LENGTH (Table 17-2). -/
def State.appendAt (s : State) (o : Op) : Nat :=
  let p := o.b.nat 36 0 32
  if p = 0xFFFFFFFF then ((s.kvOf o.x.index).map fun m => s.kvLen m (o.b.nat 32 0 16)).getD 0 else p

def effKvAppend (s : State) (o : Op) : State :=
  match s.kvOf o.x.index with
  | none => s
  | some m => s.append o m (o.b.nat 32 0 16) (s.appendAt o) (s.opTensor o 16) (s.opTensor o 24) 0

/-- KV_APPEND. POSITION is compared with LENGTH as the row carries the operation out (log entry 53). -/
def execKvAppend (i d : Nat) (s : State) : Host.Outcome State Fault Refusal :=
  run State.core s fun s => s.operate i d oKvAppend (fun s o => (s.fieldAreas o [16, 24], [])) effKvAppend
    (fun s o => s.appendBlocked o (o.b.nat 32 0 16) (s.appendAt o) ((s.opTensor o 16).dim 2))

/-! ### ATTN -/

/-- The visible keys of a query at position `t`: from and to (R335). -/
def visible (mask w t len : Nat) : Nat × Nat :=
  match mask with
  | 1 => (0, len)
  | 2 => (t + 1 - w, min (t + 1) len)
  | _ => (0, min (t + 1) len)

/-- The rows of keys and values that an ATTN reads in its pool, those of its own append left out. -/
def attnRows (s : State) (o : Op) : List (Nat × Nat) :=
  let l := o.b.nat 40 0 16
  let q := s.opTensor o 16
  let t0 := o.b.nat 44 0 32
  match s.kvOf o.x.index with
  | none => []
  | some m =>
    let len := s.kvLen m l
    let k := s.pool m.pool
    if dField o.b 24 != 0 && len < t0 then [] else
    let seen := ((List.range (q.dim 2)).flatMap fun i =>
      let (a, b) := visible (o.b.nat 48 0 2) (o.b.nat 52 0 32) (t0 + i) len
      (List.range (b - a)).map (a + ·)).dedup
    let old := if dField o.b 24 = 0 then seen else seen.filter fun p => p < t0 || t0 + q.dim 2 ≤ p
    old.flatMap fun p => (List.range k.heads).flatMap fun h => [false, true].flatMap fun v =>
      let (r, sa, sn) := s.kvRow m o.x.index l h p v
      r :: (if sn = 0 then [] else [(sa, sn)])

/-- The tensors of an ATTN, and the rows of a pool on this chip. -/
def attnRegions (s : State) (o : Op) : List (Nat × Nat) × List (Nat × Nat) :=
  (s.fieldAreas o [16, 24, 32] ++ (attnRows s o).filter (fun r => s.isLocal r.1), s.fieldAreas o [8])

/-- The rows, and the map page, that an ATTN reads in a pool on another chip (R340). -/
def attnRemote (s : State) (o : Op) : List (Nat × Nat) :=
  match s.kvOf o.x.index with
  | none => []
  | some m =>
    if s.isLocal (s.pool m.pool).backing || (s.pool m.pool).lost then []
    else s.mapArea m o.x.index (o.b.nat 40 0 16) :: attnRows s o

/-- What a pool on another chip still keeps an ATTN from: its reads are sent once, and all are awaited (R340). -/
def State.kvWaits (s : State) (i d : Nat) : Option State :=
  match s.op? i d oAttn with
  | none => none
  | some o =>
    let l := attnRemote s o
    if l.isEmpty then none
    else if !o.r.asked then
      let s := s.readThere o.x.owner l (some (i, d))
      some { s with sched := { s.sched with runs := s.sched.runs.map fun (r : Run) =>
        (if r.s == i && r.d == d then { r with asked := true } else r) } }
    else if s.valley.outstanding.any (fun x => x.msg.typ == mRdReq && x.job == some (i, d)) ||
        s.valley.queued.any (fun x => x.1.typ == mRdReq && x.2 == some (i, d)) then some s
    else none

/-- A score's weight: e^s × 2^−40 rounded, ties to even, to 8 significant bits, no finer than 2^−1062 (R336). -/
def weight (sc : Dy) : Dy :=
  let e := (er32Exp sc).scale (-40)
  let sp := max (e.log2 - 7) (-1062)
  ⟨roundTo sp none e, sp⟩

/-- Pairs of the positions `[a, b)` in key blocks of 128, each in chunks of 16 by position (R336). -/
def keyBlocks (a b : Nat) : List (List (List Nat)) :=
  ((List.range (b / 128 + 1)).map fun k =>
    ((List.range 8).map fun c =>
      (List.range 16).filterMap fun i =>
        let p := k * 128 + c * 16 + i
        if a ≤ p && p < b then some p else none).filter (!·.isEmpty)).filter (!·.isEmpty)

/-- One row of one query head, its scores given by position (R336 to R338): the values for each element of HEAD_DIM.
`val p` are the values at position `p`. -/
def attnRow (key row : Nat) (strict : Bool) (a b dim : Nat) (score : Nat → Val) (val : Nat → List Val) (bad : Bool) : List Val :=
  let all (v : Val) := List.replicate dim v
  if b ≤ a then all (.zero false)
  else
    let ps := (List.range (b - a)).map (a + ·)
    let ss := ps.map score
    let infs := (ss.filter (· == .inf false)).length
    if bad || ss.any (·.isNan) then all (.nan false)
    else if strict && ss.any (beyond 700) then all (.nan false)
    else
      let ws : List Val := ss.map fun v =>
        if 0 < infs then (if v == .inf false then .num Dy.one else .zero false)
        else match v with
          | .inf _ => .zero false
          | v => Val.ofDy (weight (v.dy.limit 700))
      let w (p : Nat) : Val := ws.getD (p - a) (.zero false)
      let den := ws.foldl combine (.zero false)
      let cols := ps.map val
      (List.range dim).map fun c =>
        let v (p : Nat) : Val := (cols.getD (p - a) []).getD c (.zero false)
        let col := ps.map v
        if infs = 0 && ss.all (· == .inf true) then (if col.any (·.isNan) then .nan false else .zero false)
        else if (col.headD (.zero false)).isNum && col.all (· == col.headD (.zero false)) then col.headD (.zero false)
        else
          let num := (keyBlocks a b).foldl (fun acc bl =>
            reduce key (row * dim + c) acc (bl.map fun ch => chunkSum (ch.map fun p => (w p).mul (v p)))) (.zero false)
          match num, den with
          | .num x, .num y => quotient 0x104 x y
          | x, _ => x

/-- ATTN: the append, then LENGTH read once, then every query head and row. -/
def effAttn (s : State) (o : Op) : State :=
  match s.kvOf o.x.index with
  | none => s
  | some m =>
    let l := o.b.nat 40 0 16
    let t0 := o.b.nat 44 0 32
    let q := s.opTensor o 16
    let dst := s.opTensor o 8
    let qs := s
    let s := if dField o.b 24 = 0 then s else s.append o m l t0 (s.opTensor o 24) (s.opTensor o 32) dst.count
    let k := s.pool m.pool
    let len := s.kvLen m l
    let sc := Fmt.fp32.decode (o.b.nat 56 0 32)
    let (qh, r) := (q.dim 1, q.dim 2)
    let row (n : Nat) : List Val × Bool :=
      let (h, i) := (n % qh, n / qh)
      let g := h * k.heads / qh
      let (a, b) := visible (o.b.nat 48 0 2) (o.b.nat 52 0 32) (t0 + i) len
      let x := (List.range (q.dim 0)).map fun c => qs.elem q [c, h, i]
      let ks (p : Nat) : List Val := s.kvVals m o.x.index l g p false
      let score (p : Nat) : Val :=
        (reduce o.b.toNat (n * 2 ^ 32 + p) (.zero false) (chunksOf ((chunkLen q.fmt k.format).getD 1)
          ((x.zip (ks p)).map fun e => products (isWide q.fmt k.format) e.1 e.2))).mul sc
      let far := (List.range (b - a)).any fun p => beyond 700 (score (a + p))
      (attnRow o.b.toNat n (o.b.bit 48 2) a b k.dim score (fun p => s.kvVals m o.x.index l g p true)
        (x.any (·.isNan) || (List.range (b - a)).any fun p => (ks (a + p)).any (·.isNan)), far)
    let rows := (List.range (qh * r)).map row
    let s := (s.openPanels o.r.hps q.fmt k.format (max k.dim len)).putTensor o dst (rows.flatMap (·.1))
      (fun n => qs.topAt q (coords q.shape n))
    let s := s.count o.x.index 5 ((attnRemote qs o).map (·.2)).sum
    if rows.any (·.2) then s.softmaxRange o else s

/-- Why an ATTN cannot be carried out. -/
def attnBlocked (s : State) (o : Op) : Option Nat :=
  if dField o.b 24 = 0 then
    match s.kvOf o.x.index with
    | some m => if (s.pool m.pool).lost then some 0x43 else none
    | none => some 0x41
  else s.appendBlocked o (o.b.nat 40 0 16) (o.b.nat 44 0 32) (((s.opTensor o 16).dim 2))

/-- ATTN. -/
def execAttn (i d : Nat) (s : State) : Host.Outcome State Fault Refusal :=
  run State.core s fun s => match s.kvWaits i d with
    | some t => t
    | none => s.operate i d oAttn attnRegions effAttn attnBlocked

end Sys2Proof.Machine
end

