-- ==== Sys2Proof/Machine/Collective.lean ====
section
/-! DEFINITION. The collective engine: COLL (R376 to R379), and the messages and the timer of collectives (R375, R380 to R383). -/
namespace Sys2Proof.Machine
open Sys2Proof

/-! ### What members exchange (log entry 31) -/

def cOp (b : Block) : Nat := b.nat 28 0 3
def cRed (b : Block) : Nat := b.nat 28 3 2
def cXport (b : Block) : Nat := b.nat 28 5 1
def cRoot (b : Block) : Nat := b.nat 30 0 13

/-- OP, REDOP, XPORT, format, ROOT and the element count of a COLL as one word (R377). The element count is SRC's for
all but REDUCE_SCATTER, whose count is DST's; with equal member counts both say the same. -/
def collParams (b : Block) (src : Tensor) : Nat :=
  cOp b + cRed b * 8 + cXport b * 32 + src.fmt * 64 + cRoot b * 2 ^ 14 + src.count * 2 ^ 27

/-- Elements of SRC that a member sends to rank `r` of `n`: from, to (R376). Only the root of a BROADCAST sends any. -/
def sendRange (b : Block) (count rank r n : Nat) : Nat × Nat :=
  match cOp b with
  | 1 | 4 => (count / n * r, count / n * (r + 1))
  | 3 => if rank = cRoot b then (0, count) else (0, 0)
  | _ => (0, count)

/-- Bytes of a run of elements as they travel: packed bits, then for an MX format their scales. -/
def State.elemBytes (s : State) (t : Tensor) (a b : Nat) : List Byte :=
  let w := fmtBits t.fmt
  let raw (n : Nat) : Nat :=
    let o := t.bitOff (coords t.shape n)
    bits (s.vNat (t.base + o / 8) ((o % 8 + w + 7) / 8)) (o % 8) w
  packBits w ((List.range (b - a)).map fun k => raw (a + k)) ++
  (if isMx t.fmt then s.vRd (t.scale + a / 32) (b / 32 - a / 32) else [])

/-- The k-th element of a run of `n` as it came. -/
def wireElem (fmt n : Nat) (l : List Byte) (k : Nat) : Val :=
  let w := fmtBits fmt
  let v := elemVal fmt (bits (leNat ((l.drop (k * w / 8)).take ((k * w % 8 + w + 7) / 8))) (k * w % 8) w)
  if isMx fmt then underScale (l.getD ((n * w + 7) / 8 + k / 32) 0).toNat v else v

/-- Bytes that a run of `n` elements takes. -/
def wireLen (fmt n : Nat) : Nat := (n * fmtBits fmt + 7) / 8 + (if isMx fmt then n / 32 else 0)

/-- Bytes of data in one COLL_DATA: 64 granules, the first of them its header. -/
def pieceMax : Nat := 63 * 64

/-- The header granule: GROUP_ID, sequence, offset, length and parameters. -/
def pieceHeader (id seq off len params : Nat) : List Byte :=
  padTo 64 (leBytes 4 id ++ leBytes 4 seq ++ leBytes 8 off ++ leBytes 8 len ++ leBytes 16 params)

/-- One member's data sent to another, in pieces; a member with none sends its parameters alone. -/
def State.sendPieces (s : State) (x : Group) (c : Collective) (chip : Nat) (l : List Byte) : State :=
  (List.range (max 1 ((l.length + pieceMax - 1) / pieceMax))).foldl (fun s k =>
    let d := (l.drop (k * pieceMax)).take pieceMax
    s.send { typ := mCollData, src := s.chip, dst := chip, len := 1 + (d.length + 63) / 64, part := x.part,
             data := pieceHeader x.id c.seq (k * pieceMax) d.length c.params ++ padTo ((d.length + 63) / 64 * 64) d }) s

/-! ### Starting -/

/-- Collectives in progress on the chip (R378). -/
def State.collsRunning (s : State) : Nat :=
  (s.coll.groups.map fun x => (x.colls.filter (·.started.isSome)).length).sum

def State.updColl (s : State) (i seq : Nat) (f : Collective → Collective) : State :=
  s.updGroup i fun x => { x with colls := x.colls.map fun c => if c.seq == seq then f c else c }

/-- A collective starts: its data and parameters go to every member, its own are staged, early SLOWs apply (R381), and
SLOW is sent where a Basin is throttled. -/
def State.startColl (s : State) (x : Group) (c : Collective) (o : Op) : State :=
  let src := s.opTensor o 16
  let n := x.members.length
  let range (r : Nat) := sendRange o.b src.count x.rank r n
  let s1 := (List.range n).foldl (fun s r =>
    if r = x.rank then s
    else
      let l := s.elemBytes src (range r).1 (range r).2
      (s.sendPieces x c (x.members.getD r 0) l).count c.s 5 l.length) s
  let mine : Piece := { seq := c.seq, rank := x.rank, params := c.params, off := 0,
                        data := s.elemBytes src (range x.rank).1 (range x.rank).2 }
  let early := ((x.slow.filter (·.1 == c.seq)).map (·.2)).sum
  let s2 := s1.updGroup x.index fun y => { y with
    staged := y.staged ++ [mine], slow := y.slow.filter (·.1 != c.seq),
    colls := y.colls.map fun k => (if k.seq == c.seq then { k with started := some s.now, ext := min 2000 early } else k : Collective) }
  match s2.slowDuty, s2.group? x.index with
  | some d, some y => match y.colls.find? (·.seq == c.seq) with
    | some k => s2.sendSlow y k d
    | none => s2
  | _, _ => s2

/-! ### Completing -/

/-- The bytes that rank `r` has sent for a sequence, in order of offset. -/
def Group.got (x : Group) (seq r : Nat) : List Byte :=
  let l := x.staged.filter fun p => p.seq == seq && p.rank == r
  (List.range l.length).flatMap fun k => ((l.find? fun p => p.off == k * pieceMax).map (·.data)).getD []

/-- Whether rank `r`'s data for a sequence are here whole: as many bytes as this member awaits of it. -/
def awaited (b : Block) (count rank r n fmt : Nat) (x : Group) (seq : Nat) : Bool :=
  let q := sendRange b count r rank n
  !(x.staged.any fun p => p.seq == seq && p.rank == r) || (x.got seq r).length < wireLen fmt (q.2 - q.1)

/-- One step of a fold (R379). -/
def foldStep (red xport : Nat) (a b : Val) : Val :=
  match red with
  | 1 => a.maxOf b
  | 2 => a.minOf b
  | _ => let v := combine a b
    if xport = 1 then toFp32 v else v

/-- The elements of DST, from every rank's data (R376, R379). Chunks are of 256 KiB of SRC (R378). -/
def collResult (b : Block) (src dst : Tensor) (rank n : Nat) (got : Nat → List Byte) : List Val :=
  let val (r k : Nat) : Val :=
    let q := sendRange b src.count r rank n
    wireElem src.fmt (q.2 - q.1) (got r) k
  match cOp b with
  | 2 => (List.range n).flatMap fun r => (List.range src.count).map (val r)
  | 3 => (List.range src.count).map (val (cRoot b))
  | 4 => (List.range n).flatMap fun r => (List.range (src.count / n)).map (val r)
  | op =>
    (List.range dst.count).map fun e =>
      let lin := if op = 1 then dst.count * rank + e else e
      let j := lin * fmtBits src.fmt / 8 / (256 * 1024)
      let ring := (List.range n).map fun k => (j + 1 + k) % n
      match ring with
      | [] => .zero false
      | r :: t => t.foldl (fun a q => foldStep (cRed b) (cXport b) a (val q e)) (val r e)

/-- A collective's local end: the result written, the collective and its pieces gone, the descriptor's operation
carried out. -/
def State.finishColl (s : State) (x : Group) (c : Collective) (o : Op) : State :=
  let src := s.opTensor o 16
  let dst := s.opTensor o 8
  let vs := collResult o.b src dst x.rank x.members.length (x.got c.seq)
  let s := s.putTensor o dst vs (fun _ => fmtTop src.fmt)
  let s := s.updGroup x.index fun y => { y with
    colls := y.colls.filter (·.seq != c.seq), staged := y.staged.filter (·.seq != c.seq) }
  (s.opDone o src.area dst.area).reapGroup x.index

/-- A group ABORTED by this chip, its members told (R380, R383). -/
def State.abortAll (s : State) (x : Group) (seq chip reason : Nat) : State :=
  (s.ctrl x 3 seq chip reason 0).abortGroup x.index chip reason

/-- One collective goes as far as it can: it starts once its group is READY and one of the 32 places is free, ends
aborted where parameters differ (R377), and completes once every rank's data are here. -/
def State.collStep (s : State) (i seq : Nat) : State :=
  match s.group? i with
  | none => s
  | some x => match x.colls.find? (·.seq == seq) with
    | none => s
    | some c => match s.op? c.s c.d oColl with
      | none => s
      | some o =>
        let s := if c.started.isNone && x.ready && s.collsRunning < 32 then s.startColl x c o else s
        match s.group? i with
        | none => s
        | some x => match x.colls.find? (·.seq == seq) with
          | none => s
          | some c =>
            if c.started.isNone then s
            else match x.staged.find? fun p => p.seq == seq && p.params != c.params with
              | some p => s.abortAll x seq (x.members.getD p.rank 0) 3
              | none =>
                let src := s.opTensor o 16
                if (List.range x.members.length).any fun r => awaited o.b src.count x.rank r x.members.length src.fmt x seq
                then s else s.finishColl x c o

/-- Every collective of the chip in dispatch order, since a place that comes free lets another start (R378). -/
def State.collSteps (s : State) : State :=
  s.sched.runs.foldl (fun s r => s.coll.groups.foldl (fun s x =>
    match x.colls.find? fun c => c.s == r.s && c.d == r.d with
    | some c => s.collStep x.index c.seq
    | none => s) s) s

/-! ### COLL -/

/-- COLL carried out: its collective is issued with the group's next sequence (R375), or aborts at once on an ABORTED
group (R383), while THERMAL_WITHDRAWN is set (R382), or when its group is gone: the event then names no group and no sequence,
and its reason is open (log entry 54). -/
def State.issueColl (s : State) (o : Op) : State :=
  match s.groupOf o.x.owner (o.b.nat 24 0 32) with
  | none =>
    let s := (s.endDesc o.x.index o.d).updStream o.x.index (fun x => x.updHead fun j => { j with aborted := some s.chip })
    let (v, s) := s.free
    (s.emit [o.x.owner + 1] EV.collectiveAborted 2 o.x.handle (pay [(8, s.chip), (10, v % 4)]) false (some o.x.owner)).endHead o.x.index
  | some x =>
    match x.colls.find? fun c => c.s == o.x.index && c.d == o.d with
    | some c => s.collStep x.index c.seq
    | none =>
      let c : Collective := { s := o.x.index, d := o.d, seq := x.nextSeq, params := collParams o.b (s.opTensor o 16) }
      let s := s.updGroup x.index fun y => { y with nextSeq := y.nextSeq + 1 }
      match x.aborted with
      | some (chip, reason) => (s.abortOne x c chip reason).endHead c.s
      | none =>
        let s := s.updGroup x.index fun y => { y with colls := y.colls ++ [c] }
        let s := s.count c.s 5 ((x.staged.filter fun p => p.seq == c.seq && p.rank != x.rank).map (·.data.length)).sum
        if s.boot.thermalWithdrawn then (s.ctrl x 2 c.seq s.chip 1 0).abortGroup x.index s.chip 1
        else s.collStep x.index c.seq

/-- COLL. Presented again, it goes on with a collective that waits. -/
def execColl (i d : Nat) (s : State) : Host.Outcome State Fault Refusal :=
  run State.core s fun s =>
    match s.op? i d oColl with
    | none => s
    | some o => match s.reach o (s.opTensor o 16).area (s.opTensor o 8).area with
      | .fault c => s.opFault o c (s.opTensor o 16).area (s.opTensor o 8).area s
      | .hold t => t
      | .go => (s.issueColl o).advance

/-! ### Messages -/

/-- The rank of a message's sender in a group. -/
def Group.rankOf (x : Group) (chip : Nat) : Option Nat := x.members.findIdx? (· == chip)

/-- COLL_DATA: a piece staged, once. -/
def execCollData (p : Nat) (g : Msg) (s : State) : Host.Outcome State Fault Refusal :=
  run State.core s fun s => s.arrive p g fun s =>
    if g.typ != mCollData then s else
    match s.groupBy g.part (msgNat g 0 4) with
    | none => s
    | some x => match x.rankOf g.src with
      | none => s
      | some r =>
        let y : Piece := { seq := msgNat g 4 4, rank := r, params := msgNat g 24 16, off := msgNat g 8 8,
                           data := (g.data.drop 64).take (msgNat g 16 8) }
        if x.aborted.isSome || x.staged.any (fun q => q.seq == y.seq && q.rank == r && q.off == y.off) ||
            decide (y.seq < x.nextSeq) && x.colls.all (·.seq != y.seq) then s
        else
          let s := s.updGroup x.index fun z => { z with staged := z.staged ++ [y] }
          let s := match x.colls.find? (·.seq == y.seq) with
            | some c => s.count c.s 5 y.data.length
            | none => s
          s.collSteps

/-- A COLL_CTRL of a kind handed to what it does to its group. -/
def State.ctrlFrom (s : State) (p : Nat) (g : Msg) (kind : Nat) (f : State → Group → State) : State :=
  s.arrive p g fun s =>
    if g.typ != mCollCtrl || msgNat g 0 1 != kind then s
    else match s.groupBy g.part (msgNat g 4 4) with
      | some x => if x.members.contains g.src then f s x else s
      | none => s

/-- COLL_READY: a member has created the group (R375); one that comes before this chip's own creation is kept. -/
def execCollReady (p : Nat) (g : Msg) (s : State) : Host.Outcome State Fault Refusal :=
  run State.core s fun s => s.arrive p g fun s =>
    if g.typ != mCollCtrl || msgNat g 0 1 != 0 then s
    else match s.groupBy g.part (msgNat g 4 4) with
      | some x => (s.updGroup x.index fun y => { y with readyFrom := (y.readyFrom ++ [g.src]).dedup }).collSteps
      | none => { s with coll := { s.coll with early := (s.coll.early ++ [(g.part, msgNat g 4 4, g.src)]).dedup } }

/-- COLL_SLOW: Δ added to the collective's limit, at most 2,000 ms in all; kept for one that has not started (R381). -/
def execCollSlow (p : Nat) (g : Msg) (s : State) : Host.Outcome State Fault Refusal :=
  run State.core s fun s => s.ctrlFrom p g 1 fun s x =>
    let seq := msgNat g 8 4
    let ms := msgNat g 16 4
    if x.colls.any fun c => c.seq == seq && c.started.isSome then
      s.updColl x.index seq fun c => { c with ext := min 2000 (c.ext + ms) }
    else if x.nextSeq ≤ seq || x.colls.any (·.seq == seq) then
      s.updGroup x.index fun y => { y with slow := y.slow ++ [(seq, ms)] }
    else s

/-- COLL_WITHDRAWN: the collectives of the group abort, naming the chip that withdrew (R382). -/
def execCollWithdrawn (p : Nat) (g : Msg) (s : State) : Host.Outcome State Fault Refusal :=
  run State.core s fun s => (s.ctrlFrom p g 2 fun s x => s.abortGroup x.index (msgNat g 12 2) 1).advance

/-- COLL_ABORT: the collective aborts with the chip and the reason named, and the group is ABORTED (R383). -/
def execCollAbort (p : Nat) (g : Msg) (s : State) : Host.Outcome State Fault Refusal :=
  run State.core s fun s => (s.ctrlFrom p g 3 fun s x => s.abortGroup x.index (msgNat g 12 2) (msgNat g 14 1)).advance

/-- COLL_TIMEOUT: a collective of the group has reached its limit; ABORT names the lowest-ranked member whose data it
still awaits (R380). -/
def execCollTimeout (i : Nat) (s : State) : Host.Outcome State Fault Refusal :=
  run State.core s fun s =>
    match s.group? i with
    | none => s
    | some x =>
      match x.colls.find? fun c => c.started.any fun t => t + (x.timeout + c.ext) * 1000000 ≤ s.now with
      | none => s
      | some c =>
        let late := match (s.stream? c.s).bind (·.head?) with
          | none => none
          | some _ =>
            let b := ((s.runAt c.s c.d).map Run.desc).getD 0
            let src := s.runTensor c.s c.d 16
            (List.range x.members.length).find? fun r => awaited b src.count x.rank r x.members.length src.fmt x c.seq
        (s.abortAll x c.seq (x.members.getD (late.getD x.rank) s.chip) 0).advance

end Sys2Proof.Machine
end

