-- ==== Sys2Proof/Machine/Flags.lean ====
section
/-! DEFINITION. Status indicators that are computed from the state: APPROVED (R406), the TDI code (Table 21-7), held alert causes (R457), the coded reference offset (Table 24-9). -/
namespace Sys2Proof.Machine
open Sys2Proof

/-- SEC_STATUS.APPROVED (R406). -/
def State.approved (s : State) : Bool := s.sec.lifecycle == 2 && s.sec.level ≤ 1 && s.sec.selfTest && !s.sec.error

/-- The TDI code of a VF (Table 21-7): 0 where it is none, its partition not being confidential (log entry 68). -/
def State.tdiCode (s : State) (n : Nat) : Nat :=
  match (s.fn n).tdi with
  | 0 => b2n ((s.fn n).enabled && (s.part (n - 1)).exist && (s.part (n - 1)).cfg.confidential)
  | 3 => 3
  | _ => 2

/-- Whether the condition of a condition-held cause holds. -/
def State.causeHeld (s : State) (i : Nat) : Bool :=
  match i with
  | 3 => s.plains.any fun x => x.duty < 8
  | 4 => s.basins.any fun b => b.throttled || b.psr
  | 5 => s.clk.holdover
  | _ => false

/-- OFFSET of CLK_REF_STATUS: units of 50 ppm, at most 127 either way. -/
def offsetCode (ppm : Int) : Nat := twos 8 (max (-127) (min 127 (ppm / 50)))

end Sys2Proof.Machine
end

