-- ==== Sys2Proof/Machine/DebugMem.lean ====
section
/-! DEFINITION. DBG_MEM accesses (R458): the word they name, its read or write, and those that wait for a Plain's exit from RET (R61, R423). -/
namespace Sys2Proof.Machine
open Sys2Proof

/-- The word at a local address, whoever owns it. -/
inductive DbgWord where
  | refused
  | wait (plain : Nat)
  | at' (a : Nat)

/-- DBG_MEM_ADDR resolved: refused in a reserved range; a store of a Plain in RET waits for its exit (R61, R423). -/
def State.dbgWord (s : State) : DbgWord :=
  match localKey s s.dbg.memAddr with
  | none => .refused
  | some k => if k < affineBase && (s.plain (keyHalf k / 2)).state == .ret then .wait (keyHalf k / 2) else .at' s.dbg.memAddr

/-- ADDR advanced by 8. -/
def Dbg.advance (d : Dbg) : Dbg := { d with memAddr := (d.memAddr + 8) % 2 ^ 40 }

/-- The word that a write of _HI completes: what _LO holds below it. -/
def State.dbgData (s : State) (v : BitVec 32) : Nat := s.dbg.memData.toNat % 2 ^ 32 + v.toNat * 2 ^ 32

/-- A word read, its low half returned, or the word written. -/
def State.dbgAccess (s : State) (a : Nat) (w : Option Nat) : State :=
  match w with
  | none => { s with readData := s.rdNat a 8 % 2 ^ 32, dbg := { s.dbg with memData := BitVec.ofNat 64 (s.rdNat a 8) } }
  | some d => { s.wr a (leBytes 8 d) with dbg := { s.dbg with memData := BitVec.ofNat 64 d } }

/-- An access that waits for its Plain; ADDR has advanced. -/
def State.dbgHold (s : State) (w : Option Nat) : State :=
  { s with dbg := ({ s.dbg with held := s.dbg.held ++ [(s.dbg.memAddr, w)] } : Dbg).advance }

/-- The accesses that waited for a Plain, in the order they came. -/
def State.dbgServe (s : State) (p : Nat) : State :=
  let mine (x : Nat × Option Nat) : Bool := (localKey s x.1).any fun k => k < affineBase && keyHalf k / 2 == p
  (s.dbg.held.filter mine).foldl (fun s x => s.dbgAccess x.1 x.2)
    { s with dbg := { s.dbg with held := s.dbg.held.filter fun x => !mine x } }

end Sys2Proof.Machine
end

