-- ==== Sys2Proof/Machine/Validate.lean ====
section
/-! DEFINITION. The checks of a job at submission (R174 to R182, R188, Table 9-6) with the rules that the operations' own chapters add. -/
namespace Sys2Proof.Machine
open Sys2Proof

/-! ### Causes (Table 9-6) -/

def vPlace : Nat := 0x01
def vOp : Nat := 0x02
def vReserved : Nat := 0x03
def vTensor : Nat := 0x04
def vShape : Nat := 0x05
def vFormat : Nat := 0x06
def vExtent : Nat := 0x07
def vMx : Nat := 0x08
def vAlias : Nat := 0x09
def vHandle : Nat := 0x0A
def vWait : Nat := 0x0B
def vOverlap : Nat := 0x0C
def vRelease : Nat := 0x0D
def vParam : Nat := 0x0E
def vRead : Nat := 0x0F

/-- A failed check: its cause and its operand, 0xFF for none. -/
abbrev Fail := Nat × Nat
def noOperand : Nat := 0xFF

/-- A failure unless a condition holds. -/
def need (ok : Bool) (cause : Nat) (operand : Nat := noOperand) : List Fail := if ok then [] else [(cause, operand)]

/-! ### Fields of a descriptor -/

/-- Fields of the common header and of each body as byte, low bit and width (Tables 9-2, 9-3, 14-6, 15-3, 16-1, 16-3,
16-5, 17-2, 17-4, 18-1, 19-5, 20-2); every other bit is reserved (R179). -/
def headerFields : List (Nat × Nat × Nat) := [(0, 0, 8), (1, 0, 1), (2, 0, 8), (3, 0, 3), (4, 0, 16), (8, 0, 52)]

def bodyFields (op : Nat) : List (Nat × Nat × Nat) :=
  match op with
  | 0x01 => [(16, 0, 52), (24, 0, 52), (32, 0, 52), (40, 0, 1)]
  | 0x02 | 0x03 => [(16, 0, 52), (24, 0, 52), (32, 0, 52), (40, 0, 8), (41, 0, 8), (42, 0, 8), (43, 0, 7), (44, 0, 16),
      (46, 0, 32), (50, 0, 8)]
  | 0x04 => [(16, 0, 52), (24, 0, 52), (32, 0, 52), (40, 0, 16), (44, 0, 32), (48, 0, 3), (52, 0, 32), (56, 0, 32)]
  | 0x05 => [(16, 0, 52), (24, 0, 52), (32, 0, 52), (40, 0, 3), (44, 0, 32), (48, 0, 16)]
  | 0x06 => [(16, 0, 52), (24, 0, 52), (32, 0, 8), (33, 0, 1), (36, 0, 32)]
  | 0x07 => [(16, 0, 52), (24, 0, 2), (28, 0, 32)]
  | 0x08 => [(16, 0, 52)]
  | 0x09 => [(16, 0, 52), (24, 0, 1)]
  | 0x0A => [(16, 0, 52), (24, 0, 32), (28, 0, 6), (30, 0, 13)]
  | 0x0B => [(16, 0, 32), (20, 0, 13), (24, 0, 64), (32, 0, 32)]
  | 0x0C => [(16, 0, 32), (20, 0, 14), (24, 0, 64), (32, 0, 6), (34, 0, 12)]
  | 0x0D => [(16, 0, 52), (24, 0, 52), (32, 0, 16), (36, 0, 32)]
  | 0x0E => [(16, 0, 3), (24, 0, 52)]
  | _ => []

/-- The bits that an operation's descriptor defines. -/
def opMask (op : Nat) : Nat :=
  (headerFields ++ bodyFields op).foldl (fun m f => m ||| ((2 ^ f.2.2 - 1) <<< (8 * f.1 + f.2.1))) 0

/-- The body fields that name tensors, with their operand numbers, DST among them (R188). -/
def tensorPlaces (op : Nat) : List (Nat × Nat) := (8, 0) :: (tensorFields op).mapIdx fun i o => (o, i + 1)

/-- RESERVED_SET: the operand is that of a tensor field whose upper bits are set. -/
def reservedFails (op : Nat) (b : Block) : List Fail :=
  let v := b.toNat
  let bad := v - (v &&& opMask op)
  let places := tensorPlaces op
  let inTensor := places.filter fun p => b.nat p.1 52 12 != 0
  let rest := places.foldl (fun x p => x - (x &&& ((2 ^ 12 - 1) <<< (8 * p.1 + 52)))) bad
  inTensor.map (fun p => (vReserved, p.2)) ++ need (rest == 0) vReserved

/-! ### Tensor descriptors -/

/-- Whether RANK, the dimensions and the strides obey R175 to R177. -/
def Tensor.shapeOk (t : Tensor) (dst : Bool) : Bool :=
  let r := t.rank
  let w := fmtBits t.fmt
  1 ≤ r && r ≤ 6 &&
  (List.range 6).all (fun i => if i < r then 1 ≤ t.dim i else t.dim i == 0 && t.stride i == 0) &&
  t.dim 0 * w % 8 == 0 &&
  (if t.layout = 1 || t.layout = 2 then r == 5 && t.dim 0 == 16 * t.layout else true) &&
  (!dst || w == 0 || r < 2 ||
    (t.row ≤ t.stride 1 * 8 && (List.range r).all fun i => i < 2 || t.dim (i - 1) * t.stride (i - 1) ≤ t.stride i))

/-- Reserved bits of a tensor descriptor (Table 9-1). -/
def tensorReserved (b : Block) : Bool := b.nat 0 57 7 != 0 || b.nat 8 52 12 != 0 || b.nat 16 8 24 != 0

/-- The checks of one tensor descriptor (R174 to R177, Table 9-6). A BASE that is not a multiple of 8, and a SCALE where
the format has none, count as OP_PARAM (log entry 55). -/
def State.tensorFails (s : State) (p a k : Nat) (dst : Bool) : List Fail :=
  if a % 64 != 0 || !s.isLocal a || !rangeOwned s p (vLocal a) 64 then [(vTensor, k)]
  else if s.anyPoison (vLocal a) 64 then [(vRead, k)]
  else
    let b := s.block (vLocal a)
    let t := tensorOf b
    let shape := t.shapeOk dst
    let known := fmtBits t.fmt != 0
    need (!tensorReserved b) vReserved k ++
    need (t.layout != 3) vParam k ++
    need (t.base % 8 == 0) vParam k ++
    need known vFormat k ++
    need shape vShape k ++
    (if isMx t.fmt then need (t.scale != 0 && t.layout != 1 && t.dim 0 % 32 == 0) vMx k else need (t.scale == 0) vParam k) ++
    (if shape && known then
      need (vLocal t.base + t.span ≤ 2 ^ 40 && (!s.isLocal t.base || rangeOwned s p (vLocal t.base) t.span)) vExtent k ++
      need (!isMx t.fmt || t.scale == 0 || (vLocal t.scale + t.count / 32 ≤ 2 ^ 40 &&
        (!s.isLocal t.scale || rangeOwned s p (vLocal t.scale) (t.count / 32)))) vExtent k
     else [])

/-- Whether the spans of two tensors on this chip meet (ALIAS). -/
def State.meets (s : State) (a b : Tensor) : Bool :=
  s.isLocal a.base && s.isLocal b.base && a.base < b.base + b.span && b.base < a.base + a.span

/-- C and DST that are one tensor (R304). -/
def sameTensor (a b : Tensor) : Bool :=
  a.base == b.base && a.fmt == b.fmt && a.dims == b.dims && a.strides == b.strides && a.rank == b.rank

/-! ### Rules of single operations -/

def isInt (f : Nat) : Bool := f == 0x20 || f == 0x21
def sameShape (a b : Tensor) : Bool := a.rank == b.rank && a.dims == b.dims

/-- DST's format rule of R303. -/
def dstFormat (dst : Tensor) (ints : Bool) : List Fail := need (!isInt dst.fmt || ints) vFormat 0

/-- A pair of Table 15-1; the operand named is the second unless the first never is one. -/
def pairFails (a b ka kb : Nat) : List Fail :=
  need ((chunkLen a b).isSome || fmtBits a == 0 || fmtBits b == 0) vFormat (if a = 0x21 then ka else kb)

/-- MATMUL (R303). -/
def matmulFails (a b c dst : Tensor) (hasC kmajor : Bool) : List Fail :=
  let ints := a.fmt == 0x20 && b.fmt == 0x20
  let (k, n) := if kmajor then (b.dim 0, b.dim 1) else (b.dim 1, b.dim 0)
  let plain (t : Tensor) (i : Nat) := need (t.layout == 0 && (t.rank == 2 || t.rank == 3)) vParam i
  let bat (t : Tensor) (i : Nat) := need (max 1 (t.dim 2) == 1 || max 1 (t.dim 2) == max 1 (dst.dim 2)) vParam i
  pairFails a.fmt b.fmt 1 2 ++ dstFormat dst ints ++
  (if hasC then need (!isMx c.fmt && (!isInt c.fmt || ints)) vFormat 3 ++ plain c 3 ++ bat c 3 ++
    need (c.dim 0 == dst.dim 0 && c.dim 1 == dst.dim 1) vParam 3 else []) ++
  plain dst 0 ++ plain a 1 ++ plain b 2 ++ bat a 1 ++ bat b 2 ++
  need (a.dim 1 == dst.dim 1) vParam 1 ++ need (k == a.dim 0 && n == dst.dim 0) vParam 2 ++
  need (1 ≤ a.dim 0 && a.dim 0 ≤ 2 ^ 24) vParam 1 ++
  need (dst.dim 0 ≤ 2 ^ 24 && dst.dim 1 ≤ 2 ^ 24 && dst.dim 2 ≤ 65536) vParam 0 ++
  need (!isMx b.fmt || kmajor) vParam 2

/-- Whether a tensor is a channel-blocked image. -/
def isImage (t : Tensor) : Bool := t.layout == 1 || t.layout == 2

/-- CONV and TCONV (R342 to R348): what both check. -/
def convCommon (c : Conv) (src wt bias dst : Tensor) (hasW hasB : Bool) : List Fail :=
  let ints := if hasW then src.fmt == 0x20 && wt.fmt == 0x20 else src.fmt == 0x20
  need (isImage src) vParam 1 ++ need (isImage dst) vParam 0 ++
  dstFormat dst ints ++
  need (1 ≤ c.kh && 1 ≤ c.kw && 1 ≤ c.sh && c.sh ≤ 8 && 1 ≤ c.sw && c.sw ≤ 8 && 1 ≤ c.dh && c.dh ≤ 8 && 1 ≤ c.dw && c.dw ≤ 8)
    vParam ++
  need (c.padT ≤ (c.kh - 1) * c.dh && c.padB ≤ (c.kh - 1) * c.dh && c.padL ≤ (c.kw - 1) * c.dw && c.padR ≤ (c.kw - 1) * c.dw) vParam ++
  need (c.groups != 0 && src.channels % c.groups == 0 && dst.channels % c.groups == 0) vParam ++
  need (dst.dim 4 == src.dim 4) vParam 0 ++
  (if hasB then need (!isMx bias.fmt) vFormat 3 ++
    need (bias.layout == 0 && bias.rank == 1 && bias.dim 0 == dst.channels) vParam 3 else []) ++
  (if hasW then pairFails src.fmt wt.fmt 1 2 ++
    need (wt.layout == 0 && wt.rank == 4 && c.groups != 0 && wt.dim 0 == src.channels / c.groups && wt.dim 1 == c.kw &&
      wt.dim 2 == c.kh && wt.dim 3 == dst.channels) vParam 2 else [])

/-- CONV. -/
def convFails (c : Conv) (src wt bias dst : Tensor) (hasW hasB : Bool) : List Fail :=
  let depth := c.groups == src.channels && c.groups == dst.channels
  let fits := c.recH ≤ src.imgH + c.padT + c.padB && c.recW ≤ src.imgW + c.padL + c.padR
  convCommon c src wt bias dst hasW hasB ++
  need (c.padMode != 3 && c.pool != 3 && c.upsample == 0 && c.outH == 0 && c.outW == 0 && (!c.exclude || c.pool == 1)) vParam ++
  need (hasW == (c.pool == 0)) vTensor 2 ++
  need (c.pool != 2 || !hasB) vTensor 3 ++
  need (c.pool == 0 || depth) vParam ++
  need (c.pool != 1 || (chunkLen src.fmt src.fmt).isSome && !isMx src.fmt) vFormat 1 ++
  need (c.padMode != 2 || c.pool == 2 ||
    (c.padT < src.imgH && c.padB < src.imgH && c.padL < src.imgW && c.padR < src.imgW)) vParam ++
  need fits vParam ++
  need (!fits || c.sh == 0 || c.sw == 0 ||
    (dst.imgH == (src.imgH + c.padT + c.padB - c.recH) / c.sh + 1 &&
     dst.imgW == (src.imgW + c.padL + c.padR - c.recW) / c.sw + 1)) vParam 0

/-- TCONV. -/
def tconvFails (c : Conv) (src wt bias dst : Tensor) (hasW hasB : Bool) : List Fail :=
  let pow (v : Nat) : Bool := v == 1 || v == 2 || v == 4 || v == 8
  let size (i st k o pa pb : Nat) : Int := ((i : Int) - 1) * st - pa - pb + k + o
  convCommon c src wt bias dst hasW hasB ++
  need (c.padMode == 0 && c.pool == 0 && !c.exclude && c.upsample != 3) vParam ++
  need (hasW == (c.upsample == 0)) vTensor 2 ++
  (if c.upsample = 0 then
    need (c.outH < c.sh && c.outW < c.sw) vParam ++
    need ((dst.imgH : Int) == size src.imgH c.sh c.recH c.outH c.padT c.padB &&
      (dst.imgW : Int) == size src.imgW c.sw c.recW c.outW c.padL c.padR) vParam 0
   else
    need (pow c.sh && pow c.sw && !(c.sh == 1 && c.sw == 1) && c.kh == 1 && c.kw == 1 && c.dh == 1 && c.dw == 1 &&
      c.padT == 0 && c.padB == 0 && c.padL == 0 && c.padR == 0 && c.outH == 0 && c.outW == 0 &&
      c.groups == src.channels && dst.channels == src.channels) vParam ++
    need (c.upsample != 2 || src.fmt != 0x21) vFormat 1 ++
    need (dst.imgH == src.imgH * c.sh && dst.imgW == src.imgW * c.sw) vParam 0)

/-- An FP32 field that must be finite and positive, or with `zero` not negative. -/
def goodParam (zero : Bool) (v : Nat) : Bool :=
  match Fmt.fp32.decode v with
  | .num d => !d.isNeg
  | .zero _ => zero
  | _ => false

/-- What compatibility mode asks (R320). -/
def compatFails (compat : Bool) (round : Nat) (dst : Tensor) (srcs : List (Tensor × Nat)) : List Fail :=
  if !compat then [] else
    srcs.flatMap (fun t => need (t.1.fmt == 1 || t.1.fmt == 2 || t.1.fmt == 3) vParam t.2) ++
    need (dst.fmt == 2 || dst.fmt == 3) vParam 0 ++ need (round == 0) vParam

/-- The functions that compatibility mode has (Table 16-6). -/
def compatFunc (f : Nat) : Bool := [0x01, 0x03, 0x04, 0x05, 0x06, 0x07, 0x09, 0x0A].contains f || singleOp f

/-- SFU (R308, R309). -/
def sfuFails (b : Block) (a c dst : Tensor) (hasC : Bool) : List Fail :=
  let f := b.nat 32 0 8
  let two := 0x0E ≤ f && f ≤ 0x14 && f != 0x0F
  let known := (1 ≤ f && f ≤ 0x0E) || (0x10 ≤ f && f ≤ 0x15)
  need known vParam ++
  (if known then need (hasC == two) vTensor 2 ++
    need (if f = 0x0E || f = 0x15 then goodParam false (b.nat 36 0 32) else b.nat 36 0 32 == 0) vParam else []) ++
  need (f != 0x0E || a.dim 0 % 2 == 0) vParam 1 ++
  need (f != 0x0E || !hasC || c.fmt == 0x21) vFormat 2 ++
  need (!b.bit 33 0 || compatFunc f) vParam ++
  need (sameShape a dst) vParam 1 ++ need (!hasC || sameShape c dst) vParam 2 ++
  compatFails (b.bit 33 0) (dRound b) dst ((a, 1) :: if hasC then [(c, 2)] else [])

/-- SOFTMAX (R308, R312). -/
def softmaxFails (b : Block) (a dst : Tensor) : List Fail :=
  need (goodParam false (b.nat 28 0 32)) vParam ++ need (a.layout == 0) vParam 1 ++ need (dst.layout == 0) vParam 0 ++
  need (a.dim 0 ≤ 2 ^ 24) vParam 1 ++ need (sameShape a dst) vParam 1 ++
  compatFails (b.bit 24 1) (dRound b) dst [(a, 1)]

/-- NORM (R308, R317). -/
def normFails (b : Block) (a g c dst : Tensor) (hasG hasC : Bool) : List Fail :=
  let kind := b.nat 40 0 2
  let groups := b.nat 48 0 16
  let len := if kind = 2 then a.channels else a.dim 0
  let side (t : Tensor) (k : Nat) := need (!isInt t.fmt) vFormat k ++
    need (t.layout == 0 && t.rank == 1 && t.dim 0 == len) vParam k
  need (kind != 3) vParam ++ need (goodParam true (b.nat 44 0 32)) vParam ++
  (if kind = 2 then need (isImage a) vParam 1 ++ need (groups != 0 && groups ≤ len && len % groups == 0) vParam ++
    need (!b.bit 40 2) vParam
   else need (groups == 0) vParam ++ need (a.layout == 0) vParam 1 ++ need (dst.layout == 0) vParam 0 ++
    need (a.dim 0 ≤ 2 ^ 24) vParam 1) ++
  (if hasG then side g 2 else []) ++ (if hasC then side c 3 else []) ++
  need (sameShape a dst) vParam 1 ++
  compatFails (b.bit 40 2) (dRound b) dst ((a, 1) :: ((if hasG then [(g, 2)] else []) ++ if hasC then [(c, 3)] else []))

/-- A stream's pool and whether a layer is below its KV_LAYERS. -/
def State.layerOk (s : State) (x : Stream) (l : Nat) : Option KvPool :=
  match x.kv with
  | some m => if l < m.maps.length then some (s.pool m.pool) else none
  | none => none

/-- Keys or values shaped as in Table 17-2 with `n` positions. -/
def kvShape (k : KvPool) (t : Tensor) (n : Nat) : Bool :=
  t.layout == 0 && t.rank == 3 && t.dim 0 == k.dim && t.dim 1 == k.heads && t.dim 2 == n

/-- KV_APPEND (R327). -/
def appendFails (s : State) (x : Stream) (b : Block) (ks vs : Tensor) : List Fail :=
  match s.layerOk x (b.nat 32 0 16) with
  | none => [(vParam, noOperand)]
  | some k => need (kvShape k ks (ks.dim 2)) vParam 1 ++ need (kvShape k vs (ks.dim 2)) vParam 2

/-- ATTN (R334). -/
def attnFails (s : State) (x : Stream) (b : Block) (q nk nv dst : Tensor) : List Fail :=
  let hasK := dField b 24 != 0
  let mask := b.nat 48 0 2
  let w := b.nat 52 0 32
  need (hasK == (dField b 32 != 0)) vTensor 3 ++ need (mask != 3) vParam ++
  need (if mask = 2 then 1 ≤ w && w ≤ 2 ^ 24 else w == 0) vParam ++
  need (goodParam false (b.nat 56 0 32)) vParam ++ need (!isInt dst.fmt) vFormat 0 ++
  match s.layerOk x (b.nat 40 0 16) with
  | none => [(vParam, noOperand)]
  | some k =>
    need ((chunkLen q.fmt k.format).isSome || fmtBits q.fmt == 0) vFormat 1 ++
    need (q.layout == 0 && q.rank == 3 && q.dim 0 == k.dim && q.dim 1 % k.heads == 0) vParam 1 ++
    need (dst.layout == 0 && dst.rank == 3 && dst.dims == q.dims) vParam 0 ++
    (if hasK then need (kvShape k nk (q.dim 2)) vParam 2 ++ need (kvShape k nv (q.dim 2)) vParam 3 else [])

/-- Outer extent of a tensor (R376). -/
def Tensor.outer (t : Tensor) : Nat := t.dim (t.rank - 1)
/-- A shape with its outer extent replaced. -/
def Tensor.withOuter (t : Tensor) (n : Nat) : List Nat := updAt t.shape (t.rank - 1) fun _ => n

/-- COLL (R376). A GROUP that is no group of the partition counts as OP_PARAM (log entry 55). -/
def collFails (s : State) (p : Nat) (b : Block) (src dst : Tensor) : List Fail :=
  let op := cOp b
  match s.groupOf p (b.nat 24 0 32) with
  | none => [(vParam, noOperand)]
  | some x =>
    let n := x.members.length
    need (op < 5 && cRed b != 3 && (op < 2 || cRed b == 0)) vParam ++
    need (if op = 3 then cRoot b < n else cRoot b == 0) vParam ++
    need (1 < op || !isMx src.fmt) vFormat 1 ++ need (1 < op || !isMx dst.fmt) vFormat 0 ++
    need (match op with
      | 1 => src.shape == dst.withOuter (n * dst.outer)
      | 2 => dst.shape == src.withOuter (n * src.outer)
      | 4 => sameShape src dst && src.outer % n == 0
      | _ => sameShape src dst) vParam 1

/-- QUANT (R287) and COPY (R180). -/
def quantFails (a dst : Tensor) : List Fail :=
  need (isMx a.fmt || isMx dst.fmt) vParam 1 ++ need (sameShape a dst) vParam 1
def copyFails (zero : Bool) (a dst : Tensor) (hasA : Bool) : List Fail :=
  need (hasA != zero) vTensor 1 ++ need (!isMx dst.fmt) vFormat 0 ++
  (if hasA && !zero then need (!isMx a.fmt) vFormat 1 ++ need (sameShape a dst) vParam 1 else [])

/-- SYNC_WAIT and SYNC_SIGNAL: the handle and its VALUE (R183, R184, R189), or the Ford slot of a release (R185). -/
def syncFails (s : State) (p : Nat) (b : Block) : List Fail :=
  let h := b.nat 16 0 32
  let v := b.nat 24 0 64
  let wait := dOp b == oWait
  let remote := b.bit 20 12 && b.nat 20 0 12 != s.chip
  if !wait && b.bit 20 13 then
    let w := s.window (p + 1) (b.nat 32 0 6)
    need (h == 0 && v == 0 && !b.bit 20 12) vHandle ++
    need (w.mapped && w.bind == 0 && b.nat 34 0 12 < w.count) vRelease
  else if remote then []
  else match s.syncOf p h with
    | none => [(vHandle, noOperand)]
    | some x =>
      need (match x.typ with
        | 3 => wait || (1 ≤ v && v ≤ 2 ^ 32)
        | 1 => 1 ≤ v && v ≤ 65535
        | _ => v == 0) vHandle

/-! ### One descriptor and the whole list -/

/-- Body fields that must name a tensor, where no rule of the operation decides it. -/
def requiredFields (op : Nat) : List Nat :=
  match op with
  | 0x01 => [16, 24]
  | 0x0D => [16, 24]
  | 0x02 | 0x03 | 0x04 | 0x05 | 0x06 | 0x07 | 0x08 | 0x0A => [16]
  | _ => []

/-- The rules of the operation's own chapter, once every tensor it names passed its own checks. -/
def opFails (s : State) (x : Stream) (b : Block) : List Fail :=
  let t (o : Nat) := s.tensor (dField b o)
  let has (o : Nat) : Bool := dField b o != 0
  match dOp b with
  | 0x01 => matmulFails (t 16) (t 24) (t 32) (t 8) (has 32) (b.bit 40 0)
  | 0x02 => convFails (convOf b) (t 16) (t 24) (t 32) (t 8) (has 24) (has 32)
  | 0x03 => tconvFails (convOf b) (t 16) (t 24) (t 32) (t 8) (has 24) (has 32)
  | 0x04 => attnFails s x b (t 16) (t 24) (t 32) (t 8)
  | 0x05 => normFails b (t 16) (t 24) (t 32) (t 8) (has 24) (has 32)
  | 0x06 => sfuFails b (t 16) (t 24) (t 8) (has 24)
  | 0x07 => softmaxFails b (t 16) (t 8)
  | 0x08 => quantFails (t 16) (t 8)
  | 0x09 => copyFails (b.bit 24 0) (t 16) (t 8) (has 16)
  | 0x0A => collFails s x.owner b (t 16) (t 8)
  | 0x0B => syncFails s x.owner b
  | 0x0C => syncFails s x.owner b
  | 0x0D => appendFails s x b (t 16) (t 24)
  | _ => need (!dOverlap b && x.video != 0) vParam

/-- ALIAS of the destination with each source (R188, R304). -/
def aliasFails (s : State) (b : Block) : List Fail :=
  if dField b 8 = 0 then [] else
    ((tensorFields (dOp b)).zipIdx).flatMap fun f =>
      if dField b f.1 = 0 then []
      else
        let d := s.tensor (dField b 8)
        let t := s.tensor (dField b f.1)
        need (!s.meets d t || (dOp b == oMatmul && f.1 == 32 && sameTensor t d)) vAlias (f.2 + 1)

/-- Every failed check of descriptor `i`; `after` says that a descriptor other than a SYNC_WAIT stands before it. -/
def State.descFails (s : State) (x : Stream) (i : Nat) (after : Bool) (b : Block) : List Fail :=
  let op := dOp b
  if op = 0 || 0x0E < op then [(vOp, noOperand)]
  else
    let sync := op == oWait || op == oSignal
    let named := (tensorPlaces op).filter fun p => dField b p.1 != 0
    let own := reservedFails op b ++
      need (dRound b < 2 && dHpMax b ≤ 32) vParam ++
      need (!dOverlap b || (i != 0 && !sync)) vOverlap ++
      need (op != oWait || !after) vWait ++
      need ((dField b 8 != 0) == (op < 0x0B)) vTensor 0 ++
      ((tensorPlaces op).filter fun p => (requiredFields op).contains p.1).flatMap (fun p => need (dField b p.1 != 0) vTensor p.2)
    let ts := named.flatMap fun p => s.tensorFails x.owner (dField b p.1) p.2 (p.1 == 8)
    own ++ ts ++ (if ts.isEmpty && own.all (·.1 != vTensor) then opFails s x b ++ aliasFails s b else [])

/-- The first of several failures: the lowest cause, then the lowest operand (log entry 55). -/
def firstFail : List Fail → Option Fail
  | [] => none
  | a :: r => some (r.foldl (fun x y => if y.1 < x.1 || (y.1 == x.1 && y.2 < x.2) then y else x) a)

/-- Descriptors from `i` on checked in list order: the index and failure of the first that fails. -/
def State.listFails (s : State) (x : Stream) (a : Nat) : Nat → Nat → Bool → Option (Nat × Fail)
  | 0, _, _ => none
  | n + 1, i, after =>
    if s.anyPoison (a + 64 * i) 64 then some (i, (vRead, noOperand))
    else
      let b := s.block (a + 64 * i)
      match firstFail (s.descFails x i after b) with
      | some f => some (i, f)
      | none => State.listFails s x a n (i + 1) (after || dOp b != oWait)

/-- Validation of a job (R188): the index, cause and operand of the first failure. -/
def State.validate (s : State) (x : Stream) (addr n : Nat) : Option (Nat × Fail) :=
  let a := vLocal addr
  if addr % 64 != 0 || 2 ^ 52 ≤ addr || !s.isLocal addr then some (0, (vPlace, noOperand))
  else match (List.range n).find? fun i => !rangeOwned s x.owner (a + 64 * i) 64 with
    | some i => some (i, (vPlace, noOperand))
    | none => s.listFails x a n 0 false

end Sys2Proof.Machine
end

