-- ==== Sys2Proof/Machine/Jobs.lean ====
section
/-! DEFINITION. The life of a job: STREAM_SUBMIT (R166, R188 to R199, R269 to R271), SYNC_WAIT and SYNC_SIGNAL (R181 to R187), COMPOSE (R391), the ends of descriptors, pre-emption at tile boundaries (R202, R231, R232) and the scheduler's timers. -/
namespace Sys2Proof.Machine
open Sys2Proof

/-! ### STREAM_SUBMIT -/

/-- The deadline rule of R166, a stream that takes no jobs (R168, R193), and an admission that a level 2 excursion has closed
(R56): DEDUCED, ST_POWER_DOWN_PENDING answers it (log entry 134). -/
def chkSubmit (m : Nat) (s : State) (e : Block) (_ : Taken) : Option (Nat × Nat) :=
  match s.streamOf (mbPart m) (eTarget e) with
  | none => none
  | some x =>
    if (x.cls == 2) != (eParam e 16 0 64 == 0) then some (ST.invalidArg, 32)
    else if x.state != .opened || x.holder then some (ST.streamClosing, 0)
    else if s.sup.level2At.isSome then some (ST.powerDownPending, 0)
    else none

/-- What the prediction needs of a descriptor, as it stands at submission. -/
def State.descOf (s : State) (x : Stream) (b : Block) : Desc :=
  let fmt := match (tensorRefs b).find? (·.1 != 0) with
    | some r => (s.tensor r.2).fmt
    | none => if dDst b = 0 then 0 else (s.tensor (dDst b)).fmt
  let len := match x.kv with
    | some m =>
      let l := s.kvLen m (b.nat 40 0 16)
      if dField b 24 = 0 then l else max l (b.nat 44 0 32 + (s.tensor (dField b 16)).dim 2)
    | none => 0
  if dOp b = oWait || dOp b = oSignal then { op := dOp b }
  else { op := dOp b, fmt := fmt, work := s.dWork b len, hpMax := dHpMax b, bytes := s.dBytes b (s.nOf x.owner (dHpMax b)), overlap := dOverlap b }

/-- The CRC-32Cs of R190: the descriptor's and its tensor descriptors'. -/
def State.crcsOf (s : State) (b : Block) (a : Nat) : List Nat :=
  crc32c (s.rd a 64) :: (tensorRefs b).map fun r => crc32c (s.rd (vLocal r.2) 64)

/-- The job that a STREAM_SUBMIT offers. -/
def State.jobOf (s : State) (x : Stream) (r : Req) (e : Block) : Job :=
  let addr := eParam e 0 0 64
  let n := eParam e 8 0 16
  let at' (i : Nat) : Nat := vLocal addr + 64 * i
  let bs := (List.range n).map fun i => s.block (at' i)
  let waits := (bs.takeWhile fun b => dOp b == oWait).length
  { addr := addr, count := n, deadline := eParam e 16 0 64, stamp := s.now, number := x.nextJob, req := r,
    waitEnd := eParam e 10 0 1 == 1, crcs := bs.mapIdx fun i b => s.crcsOf b (at' i), descs := bs.map (s.descOf x),
    leading := waits, next := waits }

/-- Whether a job is refused for lateness (Table 10-2). -/
def State.tooLate (s : State) (x : Stream) (c : Rat) (n deadline : Nat) : Bool :=
  x.cls != 2 && !(x.cls == 1 && x.lateOk) && !s.passes x c n deadline

/-- Plains in RET whose stores hold descriptors or tensor descriptors of a job on offer. -/
def State.submitRet (s : State) (x : Stream) (addr n : Nat) : List Nat :=
  if s.isLocal addr && rangeOwned s x.owner (vLocal addr) (64 * n) then
    (List.range n).flatMap fun i => s.retOf x.owner (vLocal addr + 64 * i)
  else []

/-- A submission that has reached CHECKED: the checks of R270 in order, then admission. One whose descriptors lie in the store of
a Plain in RET wakes that Plain and is read when it runs (R61). -/
def effSubmit (s : State) (r : Req) (t : Taken) : State :=
  match s.streamOf (mbPart r.m) (eTarget t.entry) with
  | none => s
  | some x =>
    if x.qdepth ≤ x.jobs.length || (s.part x.owner).busy then (s.count x.index 2 1).complete r ST.busy
    else if !(s.submitRet x (eParam t.entry 0 0 64) (eParam t.entry 8 0 16)).isEmpty then
      (s.submitRet x (eParam t.entry 0 0 64) (eParam t.entry 8 0 16)).foldl State.wakePlain s
    else match s.validate x (eParam t.entry 0 0 64) (eParam t.entry 8 0 16) with
      | some (i, f) =>
        (s.emit [x.owner + 1] EV.jobInvalid 2 x.handle
          (pay [(0, r.id.toNat), (4, i), (6, f.1), (7, f.2)]) false (some x.owner)).complete r ST.jobInvalid
      | none =>
        let j := s.jobOf x r t.entry
        let c := s.predictJob x j
        let n := s.widthOf x j
        if s.tooLate x c n j.deadline then (s.count x.index 1 1).complete r ST.latePredicted
        else
          let start : Rat := if x.fLast < s.now then s.now else x.fLast
          let s := s.updStream x.index fun y => { y with
            items := y.items ++ [.job { j with pred := c, width := n }], nextJob := y.nextJob + 1, fLast := start + c }
          let s := s.hold1 x.owner
          (if j.waitEnd then s.wait r else s.complete r ST.ok (j.number % 2 ^ 32)).advance

/-- STREAM_SUBMIT. -/
def execStreamSubmit (m : Nat) (c : Cmd) (s : State) : Host.Outcome State Fault Refusal :=
  run State.core s fun s => lolin 0x0402 m c s (chkSubmit m) effSubmit

/-! ### SYNC operations -/

/-- HANDLE, the chip that holds the object, and VALUE of a SYNC descriptor (Table 9-3). -/
def syncChip (s : State) (b : Block) : Nat := if b.bit 20 12 then b.nat 20 0 12 else s.chip

/-- The head job of a stream that the scheduler may go on with. -/
def State.live? (s : State) (i : Nat) : Option (Stream × Job) :=
  match s.stream? i with
  | none => none
  | some x => match x.head? with
    | some j => if x.state != .teardown && (s.part x.owner).step == 0 && j.aborted.isNone then some (x, j) else none
    | none => none

/-- A leading wait evaluated on an object of this chip or sent to the chip that holds it; its TIMEOUT counts from here (R183). -/
def State.evalWait (s : State) (x : Stream) (j : Job) (b : Block) : State :=
  let h := b.nat 16 0 32
  let v := b.nat 24 0 64
  let chip := syncChip s b
  let mark (s : State) : State := s.updStream x.index fun y => y.updHead fun j =>
    { j with waitFrom := some s.now, waitUs := b.nat 32 0 32, waitOn := some (chip, h) }
  if chip = s.chip then
    match s.syncOf x.owner h with
    | none => s.faultJob x.index 0x4A j.waits
    | some o =>
      let (o', g) := o.wait { owner := ⟨s.chip, x.owner, x.handle⟩, value := v }
      (mark s).setObj o' g
  else if s.isLost chip then s.faultJob x.index 0x43 j.waits
  else (mark s).syncRemote x chip 0 h v (some (x.index, j.waits))

/-- SYNC_WAIT: the head job's next leading wait evaluated, in list order (R182, R183, R190). -/
def execSyncWait (i d : Nat) (s : State) : Host.Outcome State Fault Refusal :=
  run State.core s fun s =>
    match s.live? i with
    | none => s
    | some (x, j) =>
      if j.waits != d || j.leading ≤ d || j.waitFrom.isSome then s
      else if s.missed x j then (s.removeJob i j ST.lateDropped).advance
      else if !(s.retOf x.owner (j.at d)).isEmpty then (s.retOf x.owner (j.at d)).foldl State.wakePlain s
      else match s.descCheck x j d with
        | some c => (s.faultJob i c d).advance
        | none => (s.evalWait x j (s.block (j.at d))).advance

/-- A Ford slot released to HOST, or a violation where DEVICE does not own it (R185, R136). -/
def State.releaseSlot (s : State) (x : Stream) (w i : Nat) : State :=
  let f := x.owner + 1
  if ((s.window f w).slot i).owner = 2 then
    (s.handBack f w i).count x.index 6 (if (s.window f w).mirrorData then (s.window f w).slotSize else 0)
  else (s.violate f w).emit [f] EV.fordViolation 2 (hWindow w) (pay [(0, w), (2, i)])

/-- A signal's effect; the answer says whether it has ended on this chip. -/
def State.evalSignal (s : State) (x : Stream) (d : Nat) (b : Block) : State × Bool :=
  let h := b.nat 16 0 32
  let v := b.nat 24 0 64
  let chip := syncChip s b
  if b.bit 20 13 then (s.releaseSlot x (b.nat 32 0 6) (b.nat 34 0 12), true)
  else if chip = s.chip then
    match s.syncOf x.owner h with
    | none => (s.faultJob x.index 0x4A d, false)
    | some o => (s.signalObj o ⟨s.chip, x.owner, x.handle⟩ v, true)
  else if s.isLost chip then (s.faultJob x.index 0x43 d, false)
  else (s.syncRemote x chip 1 h v (some (x.index, d)), false)

/-- A descriptor marked ended in its job. -/
def State.markEnded (s : State) (i d : Nat) (write : Bool) : State :=
  s.updStream i fun x => x.updHead fun j =>
    { j with ended := j.ended ++ [d], lastWrite := if write then some s.now else j.lastWrite }

/-- SYNC_SIGNAL: performed once every earlier descriptor of its job has ended (R184). -/
def execSyncSignal (i d : Nat) (s : State) : Host.Outcome State Fault Refusal :=
  run State.core s fun s =>
    match s.live? i with
    | none => s
    | some (x, j) =>
      if j.waits < j.leading || j.next != d || (j.descs[d]?).all (·.op != oSignal) ||
          !((List.range d).all fun k => k < j.leading || j.ended.contains k) then s
      else if s.missed x j then (s.removeJob i j ST.lateDropped).advance
      else if !(s.retOf x.owner (j.at d)).isEmpty then (s.retOf x.owner (j.at d)).foldl State.wakePlain s
      else match s.descCheck x j d with
        | some c => (s.faultJob i c d).advance
        | none =>
          let s := s.updStream i fun x => x.updHead fun j =>
            { j with next := d + 1, started := some (j.started.getD s.now) }
          let (s, done) := s.evalSignal x d (s.block (j.at d))
          (if done then (s.markEnded i d false).endHead i else s).advance

/-! ### COMPOSE -/

/-- Content published for a layer of the context bound to the stream: its ready stamp, BUFFER and producer. Whether the
layer takes it is judged by the settings in force at the next latch (R391, Hard corners of chapter 20). -/
def effCompose (s : State) (o : Op) : State :=
  let ready := o.j.lastWrite.getD o.r.since
  { s with media := { s.media with encs := s.media.encs.map fun (e : Enc) =>
      (if hMedia e.index == o.x.video && e.part == o.x.owner then
        { e with layers := updAt e.layers (o.b.nat 16 0 3) fun l =>
            ({ l with published := l.published ++ [(ready, dField o.b 24, o.x.handle)] } : Layer) }
       else e : Enc) } }

/-- COMPOSE. -/
def execCompose (i d : Nat) (s : State) : Host.Outcome State Fault Refusal :=
  run State.core s fun s => s.operate i d oCompose (fun _ _ => ([], [])) effCompose

/-! ### Ends of descriptors -/

/-- DESCRIPTOR_END: the last write of a descriptor whose operation has been carried out ends, remote writes included. -/
def execDescriptorEnd (i d : Nat) (s : State) : Host.Outcome State Fault Refusal :=
  run State.core s fun s =>
    match s.runAt i d with
    | none => s
    | some r =>
      if !r.done || r.hps.isEmpty || s.waitsRemote i d then s
      else
        let s := s.endDesc i d
        let s := (s.markEnded i d (r.op != oCompose)).drainWindows
        ((s.endHead i).partStep3 r.part).advance

/-! ### Pre-emption and the cut of a partition reset -/

/-- The sources and destinations of an operation and its effect, for the operations that write a destination of their own. -/
def opEffect (op : Nat) : Option ((State → Op → List (Nat × Nat) × List (Nat × Nat)) × (State → Op → State)) :=
  if op = oMatmul then some (matmulRegions, effMatmul)
  else if op = oConv then some (convRegions, effConv)
  else if op = oTconv then some (convRegions, effTconv)
  else if op = oAttn then some (attnRegions, effAttn)
  else if op = oSfu then some (regionsOf [16, 24], effSfu)
  else if op = oSoftmax then some (regionsOf [16], effSoftmax)
  else if op = oNorm then some (regionsOf [16, 24, 32], effNorm)
  else if op = oQuant then some (regionsOf [16], effConvert)
  else if op = oCopy then some (regionsOf [16], effCopy)
  else none

/-- What a descriptor stopped at a tile boundary has written by then (R202, R231): a prefix of its destination, where its operands
are within reach and its operation has not been carried out. Its row writes the whole when it is carried out. -/
def State.cutOp (s : State) (o : Op) (ends : Bool) : State × Option (Nat × Nat) :=
  match opEffect o.r.op with
  | none => (s, none)
  | some (regions, eff) =>
    let (srcs, dsts) := regions s o
    if o.r.done || o.r.hps.any (fun h => (s.plain (h / 2)).state != .run) then (s, none)
    else match s.reach o srcs dsts with
      | .go => s.cutStore (eff s o) o srcs dsts ends
      | _ => (s, none)

/-- What a reset that cuts a running descriptor leaves of its writes: a prefix (R231); the destination of a collective holds old or
written granules (R383). -/
def State.cutWrites (s : State) (o : Op) : State × Option (Nat × Nat) :=
  let (s, cut) := s.cutOp o true
  let dst := o.r.tensor 8
  (if o.r.op = oColl && !o.r.done && s.isLocal dst.base then s.scramble o.r.part dst.base dst.span else s, cut)

/-- A running descriptor cut by step 2 of a partition reset, with the burst under way reported (R232). -/
def State.cutRun (s : State) (r : Run) : State :=
  match s.opOf r.s r.d with
  | none => s.endRun r.s r.d
  | some o =>
    let (t, cut) := (s.updPart r.part fun x => { x with step := 0 }).cutWrites o
    ((t.updPart r.part fun x => { x with step := (s.part r.part).step }).burstCut o cut).endRun r.s r.d

/-- A save slot filled (R203, R306): the live accumulators of the half-plain's first core as 64-bit words in the form of R276, cell
(i, j) at byte 8 × (128 i + j), then the rest in the device's own form. What an operation has accumulated at a tile boundary is a
free value (log entry 144). -/
def State.fillSlot (s : State) (h k n : Nat) : State :=
  let acc := (List.range 16384).flatMap fun c => leBytes 8 (Config.savedCell n (c / 128) (c % 128)).toNat
  let rest := (List.range 131072).map (Config.savedByte n)
  { s with mem := ((acc ++ rest).foldl (fun (a : Memory × Nat) b => (a.1.put a.2 b, a.2 + 1)) (s.mem, slotKey h k)).1 }

/-- The lowest save slot of a half-plain that no descriptor holds. -/
def State.freeSlot (s : State) (h : Nat) : Nat :=
  (findFrom (fun k => if s.sched.runs.any fun r => r.saved.any fun v => v.1 == h && v.2.1 == k then none else some k) 0 8).getD 0

/-- A descriptor saved: one slot at each of its half-plains, which come free (R203). A CONV or TCONV will fetch the input rows of the
stripe it was in again (R352). -/
def State.saveRun (s : State) (r : Run) : State :=
  let n := s.fresh
  let (_, s) := s.free
  let slots := r.hps.map fun h => (h, s.freeSlot h, n)
  let s := slots.foldl (fun s v => s.fillSlot v.1 v.2.1 v.2.2) s
  { s with sched := { s.sched with runs := s.sched.runs.map fun (y : Run) =>
      (if y.s == r.s && y.d == r.d then
        ({ y with ran := y.ran + (s.now - y.since), saved := slots, hps := [], marked := false,
                  cuts := if y.plan.isEmpty || y.done then y.cuts else y.cuts ++ [n] } : Run) else y) } }

/-- PREEMPT_AT_TILE_BOUNDARY: a descriptor marked to stop does: cut by a partition reset, or saved to a slot of each of
its half-plains, which come free (R202, R203). -/
def execPreemptAtTileBoundary (i d : Nat) (s : State) : Host.Outcome State Fault Refusal :=
  run State.core s fun s =>
    match s.opOf i d with
    | none => s
    | some o =>
      if !o.r.marked || o.r.hps.isEmpty then s
      else if (s.part o.r.part).step != 0 then (s.cutRun o.r).partStep3 o.r.part
      else (((s.cutOp o false).1.chargeRun o.r).saveRun o.r).advance

/-! ### Timers of the scheduler -/

/-- LATENESS_RECHECK: for each multiple of 10,000 ns, once, and wherever jobs are dispatched, queued LC jobs that would end late
are dropped (R200). -/
def execLatenessRecheck (s : State) : Host.Outcome State Fault Refusal :=
  run State.core s fun s =>
    if s.now / 10000 = s.sched.recheck then s
    else State.advance { s with sched := { s.sched with recheck := s.now / 10000 } }

/-- LC jobs that wait in SYNC_WAIT dropped as soon as device time plus their predicted duration passes their deadline (R11). -/
def State.dropWaiting (s : State) : State :=
  let late := s.streams.filter fun x => (s.live? x.index).any fun a => decide (a.2.waits < a.2.leading) && s.missed a.1 a.2
  if !s.core || late.isEmpty then s
  else (late.foldl (fun s x => match (s.stream? x.index).bind (·.head?) with
    | some j => s.removeJob x.index j ST.lateDropped
    | none => s) s).advance

/-- WAIT_TIMEOUT: a leading wait unsatisfied for its TIMEOUT faults the job (R183); R11 comes first. -/
def execWaitTimeout (i : Nat) (s : State) : Host.Outcome State Fault Refusal :=
  run State.core s fun s =>
    match s.live? i with
    | none => s
    | some (x, j) =>
      match j.waitFrom with
      | some t =>
        if s.missed x j then (s.removeJob i j ST.lateDropped).advance
        else if j.waitUs != 0 && j.waits < j.leading && decide (t + j.waitUs * 1000 ≤ s.now) then (s.faultJob i 0x46 j.waits).advance
        else s
      | none => s

/-- REMOTE_WAIT_RESEND: a remote wait refused for a full table is sent again every 10 µs (R222). -/
def execRemoteWaitResend (i : Nat) (s : State) : Host.Outcome State Fault Refusal :=
  run State.core s fun s =>
    let due (o : Outstanding) : Bool :=
      o.msg.typ == mSyncOp && o.job.any (·.1 == i) && o.resendAt.any (· ≤ s.now)
    (s.valley.outstanding.filter due).foldl (fun s o =>
      (s.updOut o.msg.dst o.msg.tag fun y => { y with resendAt := none, since := s.now }).send o.msg) s

end Sys2Proof.Machine
end

