-- ==== Sys2Proof/Machine/Resets.lean ====
section
/-! DEFINITION. The WARM reset as rows bring it about (R76, R112, R163, R231): what it cuts of running descriptors, and what then stands. -/
namespace Sys2Proof.Machine
open Sys2Proof

/-- Every running descriptor cut: HBM keeps a prefix of what it was writing (R78, R231). The rings that would hear of it are lost
with the reset. -/
def State.cutAll (s : State) : State :=
  (s.sched.runs.filter fun r => !r.hps.isEmpty).foldl (fun s r => match s.opOf r.s r.d with
    | some o => (s.cutWrites o).1
    | none => s) s

/-- WARM where it can be performed. -/
def State.warmReset (s : State) : State := if s.warmable then s.cutAll.warm else s

/-- WARM_RESET. -/
def execWarmReset (s : State) : Host.Outcome State Fault Refusal := run State.aon s State.warmReset

/-- PERST_N_ASSERT: low for 10 µs: a WARM, unless POR_N is low or VDD_AON is off. -/
def execPerstNAssert (s : State) : Host.Outcome State Fault Refusal :=
  run State.always s fun s =>
    let s := { s with power := { s.power with perstLow := some (s.power.perstLow.getD s.now) } }
    if s.aon && s.sup.powerGood then s.warmReset else s

/-- PCIE_LINK_RESET: a hot reset, a link disable or DL_Down performs a WARM. -/
def execPcieLinkReset (s : State) : Host.Outcome State Fault Refusal :=
  run State.keeper s fun s => s.linkLost.warmReset

end Sys2Proof.Machine
end

