-- ==== Sys2Proof/Machine/Lanes.lean ====
section
/-! DEFINITION. Pass port training (Table 5-7, R96, R98), the PORT reset with its failover (R364), authentication in COENO_INIT (R416), and PASS_RETRAIN and PASS_STATUS. -/
namespace Sys2Proof.Machine
open Sys2Proof

/-! ### Lane defects (R96) -/

/-- SOURCE of a port's lane defect: the start test's at a boot, a link's error count afterwards (Table 5-4; log entry 150). -/
def State.defectSource (s : State) : Nat := if s.boot.stage == .ready || s.boot.stage == .service then 3 else 0

/-- Lanes of a port recorded (TYPE 0x0A). -/
def State.recordLanes (s : State) (p : Nat) (lanes : BitVec 8) : State :=
  ((List.range 8).filter fun l => bit lanes.toNat l).foldl (fun s l => s.lasting 0x0A s.defectSource (p + 32 * l)) s

/-! ### Routes that a port's state touches -/

/-- Since when each route has had no valid UP port (R373). -/
def State.noteRoutes (s : State) : State :=
  { s with valley := { s.valley with routes := s.valley.routes.map fun (r : Route) =>
      ({ r with downSince := if (s.upPorts r).isEmpty then some (r.downSince.getD s.now) else none } : Route) } }

/-! ### What a remote access meets (R369) -/

/-- The refusal of a read or write of another chip. -/
def State.denies (s : State) (g : Msg) : Option Nat :=
  let n := g.len * 64
  let acc := (pieces g.addr n).map fun a => access s g.part a
  let secret := (pieces g.addr n).any fun a => match localKey s a with
    | some k => (s.part (keyOwner s k)).cfg.confidential && keyOwner s k < 32
    | none => false
  if acc.contains .resetting then some ST.partitionResetting
  else if 2 ^ 40 < g.addr + n || !acc.all Acc.good then some ST.addrUnmapped
  else if s.sec.lifecycle = 0 && secret then some ST.secDenied
  else none

/-- Whether a request's keys lie where they can be served now: a Basin in service, or one that has failed. -/
def State.servable (s : State) (g : Msg) : Bool :=
  (pieces g.addr (g.len * 64)).all fun a => match localKey s a with
    | some k =>
      if affineBase ≤ k then
        let b := s.basin (keyBasin k)
        b.state == .failed || (b.state == .ready && !b.psr && !b.psrDue)
      else true
    | none => true

/-- Plains in RET whose stores a request reaches (R61). -/
def State.retPlains (s : State) (g : Msg) : List Nat :=
  ((pieces g.addr (g.len * 64)).filterMap fun a => match localKey s a with
    | some k => if k < affineBase && (s.plain (keyHalf k / 2)).state == .ret then some (keyHalf k / 2) else none
    | none => none).dedup

/-! ### A port down -/

/-- The whole messages at the front of a reception buffer, and what stands behind them. -/
def wholes : Nat → List Byte → List Msg × List Byte
  | 0, l => ([], l)
  | n + 1, l => match msgParse l with
    | some g =>
      let (r, t) := wholes n (skipPad (l.drop (msgBytes g).length))
      (g :: r, t)
    | none => ([], l)

/-- A write that a reset cuts as it arrives: a prefix of the granules that are here whole has been applied, of a length
the spec leaves unknown (R231, R365), and the partition hears of the burst (R232); a stream's handle comes only with the extension
of an LC access, and is free without it (log entry 145). -/
def State.cutWrite (s : State) (p : Nat) : State :=
  let l := (s.port p).rx.getD 0 []
  let t := (wholes (l.length / 16) l).2
  match msgParse (t ++ List.replicate 4128 0) with
  | some g =>
    let h := if g.ext.isSome then 32 else 16
    let k := (t.length - h) / 64
    if g.typ == mWrReq && g.dst == s.chip && h ≤ t.length && !s.isLost g.src && (s.dedupOf g).isNone && (s.denies g).isNone &&
        s.servable g && (s.retPlains g).isEmpty then
      let (v, s) := s.free
      let s := s.store g.addr (g.data.take (64 * (v % (k + 1))))
      let (h, s) := s.free
      s.emit [g.part + 1] EV.burstPrefix 2 ((g.ext.map (·.2)).getD (h % 2 ^ 32)) (pay [(0, s.chip * 2 ^ 40 + g.addr), (8, g.len), (10, 2)])
        false (some g.part)
    else s
  | none => s

/-- What a port's link holds is gone, its keys zeroised (Table 21-5), but for messages that have arrived whole and been acknowledged; its supervision of the
retry budget, its routes and its training stand. -/
def Port.cutLink (x : Port) : Port :=
  { x with
    corrected := 0, txSeq := 0, txAcked := 4095, replay := [], replayFrom := none, flitReplays := 0, replays := [],
    rxNext := 0, nakDue := false, credits := [192, 192, 256, 16], owed := [0, 0, 0, 0], keyPhase := false,
    keyCount := 0, keySession := 0, txq := [], tx := [[], [], [], []], unacked := [], deficit := [],
    rx := x.rx.map fun l => (wholes (l.length / 16) l).1.flatMap msgBytes,
    echo := none, otherValley := false }

/-- A port goes down (R364): messages that its peer has not acknowledged, and those queued, leave over the other valid
ports of their routes. A HEARTBEAT is of its own port and is not sent again. -/
def State.portDown (s : State) (p : Nat) : State :=
  let x := s.port p
  let l := (x.unacked.map (·.2) ++ x.txq).filter (·.typ != mHeartbeat)
  let s := (s.cutWrite p).updPort p Port.cutLink
  l.foldl (fun s g => (s.route1 { g with hops := g.hops - 1 }).1) s

/-- A PORT reset (R98): the port carries no traffic until its retrain has run. A second trigger merges into the first. -/
def State.portReset (s : State) (p : Nat) : State :=
  if !(s.port p).live then s
  else
    let s := (s.resetMaster 2 p).updPort p fun x => { x with queued := some s.now }
    ((s.portDown p).noteRoutes).refreshD

/-! ### Training -/

/-- A port FAILED (R96): what waited for it ends, the capability word and the ledger follow. -/
def State.portFails (s : State) (p : Nat) : State :=
  let x := s.port p
  let s := s.updPort p fun y => { y.cutLink with
    state := .failed, queued := none, training := false, retrain := false, waitReqs := [], full := true, budgetHit := false }
  ((s.completeAll x.waitReqs ST.portFailed).noteRoutes).refreshCaps.refreshD.advance

/-- A port trains on candidate set `n` or the next that it may use. -/
def State.trainOn (s : State) (p n : Nat) : State :=
  match s.laneSet p n with
  | some i => s.updPort p fun x => { x with state := .equalise, cand := i, tries := if n = 0 then x.tries else 1, training := true }
  | none => s.portFails p

/-- EQUALISE or FEC_LOCK has failed: once more at the same width, then the lanes are recorded and the next candidate set
follows. -/
def State.trainFails (s : State) (p : Nat) (lanes : BitVec 8) : State :=
  let x := s.port p
  if x.tries = 0 then s.updPort p fun y => { y with state := .equalise, tries := 1, full := true }
  else
    let s := s.recordLanes p lanes
    (s.updPort p fun y => { y with full := true }).trainOn p (x.cand + 1)

/-- EV_PASS_AUTH_FAILED (R416): byte 0 of PAYLOAD is the port. The port stays in COENO_INIT and gives up its place among
the retrains. -/
def State.authFails (s : State) (p : Nat) : State :=
  (s.updPort p fun x => { x with authFailed := true, training := false, retrain := false }).emit [0] EV.passAuthFailed 2 0
    (pay [(0, p)])

/-- The checks of R416. In BLANK nothing is signed. -/
def State.authOk (s : State) (i : PeerInit) : Bool :=
  i.lifecycle == s.sec.lifecycle && (s.sec.lifecycle == 0 || (i.authentic && !s.sec.error))

/-- A route to the peer through the port, unless a command's route names it (R367). -/
def State.peerRoute (s : State) (p chip : Nat) : State :=
  if s.valley.routes.any fun r => r.dest == chip && r.byCommand then s
  else
    let old := match s.route chip with
      | some r => r.ports.filter (· != p)
      | none => []
    { s with valley := { s.valley with
        routes := { dest := chip, ports := (p :: old).take 4 } :: s.valley.routes.filter (·.dest != chip) } }

/-- A port UP: link state is new, keys of a new session are derived unless the state is BLANK (R416), the route to the peer stands, what waited is answered with the
trained width. -/
def State.portUp (s : State) (p : Nat) (i : PeerInit) : State :=
  let x := s.port p
  let w := (laneSets.getD x.cand (0, 0)).1
  let s := s.updPort p fun y => { y.cutLink with
    state := .up, width := w, queued := none, training := false, retrain := false, waitReqs := [], tries := 0, saved := true,
    full := false, peer := i.chip, authFailed := false, lastFlit := s.now, keyNumber := 0,
    keySession := if s.sec.lifecycle = 0 then 0 else s.fresh + 1,
    budgetRetrain := if x.budgetHit then some s.now else x.budgetRetrain, budgetHit := false }
  let s := (State.peerRoute { s with fresh := s.fresh + 1 } p i.chip).completeAll x.waitReqs ST.ok w
  s.noteRoutes.refreshCaps.refreshD.advance

/-- PASS_SIGNAL_DETECT: DETECT ends, from the start test on (Table 5-1). -/
def execPassSignalDetect (p : Nat) (s : State) : Host.Outcome State Fault Refusal :=
  run State.core s fun s =>
    if (s.port p).state == .detect && 24 > p &&
        !(s.boot.stage == .rails || s.boot.stage == .secureBoot) then
      (s.updPort p fun x => { x with tries := 0 }).trainOn p 0
    else s

/-- PASS_TRAIN_STATE_DONE: a training state ends. -/
def execPassTrainStateDone (p : Nat) (r : TrainResult) (s : State) : Host.Outcome State Fault Refusal :=
  run State.core s fun s =>
    let x := s.port p
    if 24 ≤ p then s else
    match x.state, r with
    | .equalise, .ok _ => match s.laneSet p x.cand with
      | some i => s.updPort p fun y => { y with state := .fecLock, cand := i }
      | none => s.portFails p
    | .fecLock, .ok _ => s.updPort p fun y => { y with state := .coenoInit }
    | .coenoInit, .ok i => if x.authFailed then s else if s.authOk i then s.portUp p i else s.authFails p
    | .equalise, .failed l => s.trainFails p l
    | .fecLock, .failed l => s.trainFails p l
    | .coenoInit, .failed _ => if x.authFailed then s else s.authFails p
    | _, _ => s

/-- PASS_TRAIN_TIMEOUT: a training state has gone past its bound; no lane has been measured. -/
def execPassTrainTimeout (p : Nat) (s : State) : Host.Outcome State Fault Refusal :=
  run State.core s fun s =>
    let x := s.port p
    if 24 ≤ p then s
    else if x.state == .equalise || x.state == .fecLock || (x.state == .coenoInit && !x.authFailed) then s.trainFails p 0
    else s

/-- PASS_DRIFT_RETRAIN: the peer's transmit frequency lies more than 100 ppm away (R22). -/
def execPassDriftRetrain (p : Nat) (ppm : Int) (s : State) : Host.Outcome State Fault Refusal :=
  run State.core s fun s => if 100 < ppm.natAbs then s.portReset p else s

/-- PORT_IDLE_TIMEOUT: no flit for 1 ms (R372). -/
def execPortIdleTimeout (p : Nat) (s : State) : Host.Outcome State Fault Refusal :=
  run State.core s fun s => if (s.port p).lastFlit + 1000000 ≤ s.now then s.portReset p else s

/-! ### PASS_RETRAIN, PASS_STATUS -/

def chkPassRetrain (s : State) (e : Block) (_ : Taken) : Option (Nat × Nat) :=
  match (s.port (eParam e 0 0 5)).state with
  | .disabled => some (ST.portDisabled, 0)
  | .failed => some (ST.portFailed, 0)
  | _ => none

/-- A retrain queued, or the command held until the one that is queued or under way has ended. A port that failed to
authenticate trains again. -/
def effPassRetrain (s : State) (r : Req) (t : Taken) : State :=
  let p := eParam t.entry 0 0 5
  let full := eParam t.entry 0 5 1 == 1
  let s := (s.wait r).updPort p fun x => { x with waitReqs := x.waitReqs ++ [r], full := x.full || full }
  if (s.port p).authFailed then s.updPort p fun x => { x with authFailed := false, queued := some s.now }
  else s.portReset p

/-- PASS_RETRAIN. -/
def execPassRetrain (m : Nat) (c : Cmd) (s : State) : Host.Outcome State Fault Refusal :=
  run State.core s fun s => lolin 0x0A01 m c s chkPassRetrain effPassRetrain

/-- A port's state in the order of Table 5-7. -/
def PortState.code : PortState → Nat
  | .disabled => 0
  | .detect => 1
  | .equalise => 2
  | .fecLock => 3
  | .coenoInit => 4
  | .up => 5
  | .failed => 6

def effPassStatus (s : State) (r : Req) (t : Taken) : State :=
  let x := s.port (eParam t.entry 0 0 5)
  s.complete r ST.ok (x.state.code + x.width * 2 ^ 3 + x.peer % 4096 * 2 ^ 16 + x.corrected * 2 ^ 32)

/-- PASS_STATUS. -/
def execPassStatus (m : Nat) (c : Cmd) (s : State) : Host.Outcome State Fault Refusal :=
  run State.core s fun s => lolin 0x0A02 m c s noCheck effPassStatus

end Sys2Proof.Machine
end

