-- ==== Sys2Proof/Machine/Peers.lean ====
section
/-! DEFINITION. Membership of the Valley: JOIN, LEAVE, LOSS, the loss of a chip with its effects (R366, R373, R374), ownership notices (R226), heartbeats and Valley time (R31, R32, R370, R371), and the VALLEY commands. -/
namespace Sys2Proof.Machine
open Sys2Proof

/-! ### A chip lost (R373, R374) -/

/-- Whether something a partition has touches a lost chip (R373): a stream's accesses or holdings, a pool, a sync object, a
group. -/
def State.touches (s : State) (gone : Nat → Bool) (p : Nat) : Bool :=
  s.streams.any (fun x => x.owner == p && (x.held.any (fun h => gone h.1) ||
    s.valley.outstanding.any fun o => gone o.msg.dst && o.job.any (·.1 == x.index))) ||
  s.kv.any (fun k => k.exist && k.part == p && gone (vChip k.backing)) ||
  s.sync.objs.any (fun x => x.part == p && (x.holder.any (fun o => gone o.chip) || x.waiters.any (fun w => gone w.owner.chip) ||
    x.arrivals.any fun o => gone o.chip)) ||
  s.coll.groups.any fun g => g.part == p && g.members.any gone

/-- Pools backed on lost chips are LOST, and the streams that use them are torn down with cause PEER_LOST (R341). -/
def State.poolsLost (s : State) (gone : Nat → Bool) : State :=
  let hit (n : Nat) : Bool := (s.pool n).exist && gone (vChip (s.pool n).backing)
  let s := (List.range 8).foldl (fun s n => if hit n then s.updPool n fun k => { k with lost := true } else s) s
  s.streams.foldl (fun s x =>
    if x.kv.any fun k => hit k.pool then
      match x.head? with
      | some j => if j.started.isSome then s.faultJob x.index 0x43 j.next else s.beginTeardown x.index 0x43 0xFFFF 0
      | none => s.beginTeardown x.index 0x43 0xFFFF 0
    else s) s

/-- The effects of R374 for chips that are gone. `why` is the cause of EV_LOCK_ABANDONED. -/
def State.chipsGone (s : State) (gone : Nat → Bool) (why : Nat) : State :=
  let jobs := (s.valley.outstanding.filter (fun o => gone o.msg.dst)).filterMap (·.job) ++
    (s.valley.queued.filter (fun q => gone q.1.dst)).filterMap (·.2)
  let s := { s with valley := { s.valley with
    outstanding := s.valley.outstanding.filter fun o => !gone o.msg.dst,
    queued := s.valley.queued.filter fun q => !gone q.1.dst,
    heldReqs := s.valley.heldReqs.filter fun h => !gone h.1.src,
    views := s.valley.views.filter fun v => !gone v.1.1,
    members := s.valley.members.filter fun m => !gone m.chip } }
  let s := jobs.dedup.foldl (fun s k => s.faultJob k.1 0x43 k.2) s
  let s := s.ownersReset (fun o => o.chip != s.chip && gone o.chip) why
  let s := s.poolsLost gone
  s.coll.groups.foldl (fun s x => match x.members.find? (fun c => c != s.chip && gone c) with
    | some c => s.abortGroup x.index c 2
    | none => s) s

/-- Rings that hear of a loss: the admin ring and those of the partitions it touches. -/
def State.lossRings (s : State) (gone : Nat → Bool) : List Nat :=
  0 :: ((List.range 32).filter fun p => (s.part p).exist && s.touches gone p).map (· + 1)

/-- A chip declared lost, once: LOSS to every UP port, the event, the effects. PAYLOAD: the chip in bytes 0 and 1, the
cause in byte 2: 0 no route, 1 LOSS, 2 LEAVE, 3 the sixteenth expiry (log entry 18). -/
def State.declareLost (s : State) (c cause : Nat) : State :=
  if s.isLost c || c = s.chip then s
  else
    let rings := s.lossRings (· == c)
    let s := { s with valley := { s.valley with lost := s.valley.lost ++ [(c, s.now)] } }
    let s := s.flood { typ := mLoss, src := s.chip, dst := 0, len := 1, data := padTo 64 (leBytes 2 c) } none
    let s := s.emit rings EV.peerLost 1 0 (pay [(0, c), (2, cause)])
    (s.chipsGone (· == c) (if cause = 2 then 2 else 3)).advance

/-- NO_ROUTE_TIMEOUT: no route entry for the chip has had a valid UP port for 5 ms. -/
def execNoRouteTimeout (chip : Nat) (s : State) : Host.Outcome State Fault Refusal :=
  run State.core s fun s =>
    match s.route chip with
    | some r => if r.downSince.any (· + 5000000 ≤ s.now) then s.declareLost chip 0 else s
    | none => s

/-- This chip out of the Valley: its membership ends. -/
def State.quit (s : State) : State :=
  { s with valley := { s.valley with joined := false, joining := [], timed := false, root := false, members := [], waitingJoin := [] } }

/-- LOSS names this chip: it leaves as if by VALLEY_LEAVE, and every other chip is lost to it (R373). -/
def State.expel (s : State) : State :=
  if s.valley.expelled then s
  else
    let s := if s.valley.joined then s.flood { typ := mLeave, src := s.chip, dst := 0 } none else s
    let s := s.quit.emit [0] EV.valleyExpelled 1
    let s := s.chipsGone (fun c => c != s.chip) 3
    { s with valley := { s.valley with expelled := true } }.advance

/-- LOSS. -/
def execLoss (p : Nat) (g : Msg) (s : State) : Host.Outcome State Fault Refusal :=
  run State.core s fun s => s.arrive p g fun s =>
    if g.typ != mLoss then s
    else
      let c := msgNat g 0 2 % 4096
      if c = s.chip then s.expel else s.declareLost c 1

/-- LEAVE: its sender is lost, and holding chips treat it as a WARM of every owner there (R226, R373). -/
def execLeave (p : Nat) (g : Msg) (s : State) : Host.Outcome State Fault Refusal :=
  run State.core s fun s => s.arrive p g fun s => if g.typ != mLeave then s else s.declareLost g.src 2

/-- OWNER_NOTICE: a stream of the sender was reset: its locks here are abandoned, its open arrivals break their barriers
(R224, R226, R228). -/
def execOwnerNotice (p : Nat) (g : Msg) (s : State) : Host.Outcome State Fault Refusal :=
  run State.core s fun s => s.arrive p g fun s =>
    if g.typ != mOwnerNotice then s
    else if g.dst != s.chip then s.forward g
    else (s.ownersReset (· == ⟨g.src, msgNat g 4 1, msgNat g 0 4⟩) (msgNat g 5 1)).advance

/-! ### JOIN (R366) -/

/-- JOIN: VALLEY_ID in bytes 0 and 1, the chip ID in 2 and 3, the serial number in 4 to 11, ROOT in 12, and in 13 the kind:
0 a chip joins, 1 a member answers, 2 refused (log entry 22). -/
def joinData (id chip serial root kind : Nat) : List Byte :=
  padTo 64 (leBytes 2 id ++ leBytes 2 chip ++ leBytes 8 serial ++ leBytes 1 root ++ leBytes 1 kind)

def State.joinMsg (s : State) (dst kind : Nat) : Msg :=
  { typ := mJoin, src := s.chip, dst := dst, len := 1,
    data := joinData s.valley.id s.chip s.sec.serial.toNat (b2n s.valley.root) kind }

/-- The VALLEY_JOIN under way ends without a place in the Valley. -/
def State.joinFails (s : State) (status : Nat) : State := (s.quit).completeAll s.valley.joining status

/-- Chips that a route with a valid UP port leads to (RESULT of VALLEY_JOIN; log entry 58). -/
def State.reachable (s : State) : Nat :=
  (s.valley.routes.filter fun r => r.dest != s.chip && !(s.upPorts r).isEmpty && !s.isLost r.dest).length

/-- VALLEY_JOIN completes once every UP port has exchanged its join and device time has been loaded or slewed; the time
root has nothing to load. -/
def State.joinDone (s : State) : State :=
  if !s.valley.joining.isEmpty && s.valley.waitingJoin.all (fun p => !(s.port p).live) &&
      (s.valley.timed || s.timeRoot == s.chip) then
    ({ s with valley := { s.valley with joining := [], timed := true } }).completeAll s.valley.joining ST.ok s.reachable
  else s

/-- A member noted, a JOIN flooded once. -/
def State.takeMember (s : State) (p : Nat) (g : Msg) (x : Member) (kind : Nat) : State :=
  let s := { s with valley := { s.valley with lost := s.valley.lost.filter (·.1 != x.chip) } }
  let seen := s.valley.members.contains x
  let s := { s with valley := { s.valley with members := s.valley.members.filter (·.chip != x.chip) ++ [x] } }
  if kind = 0 then
    let s := if s.valley.joined then s.sendPort p (s.joinMsg x.chip 1) else s
    if seen then s else s.flood g (some p)
  else if seen || g.dst = s.chip then s
  else s.flood g (some p)

/-- A JOIN weighed: another VALLEY_ID, this chip's own ID with another serial number, a member's ID with another serial
number, a chip lost less than 100 ms ago. -/
def State.join (s : State) (p : Nat) (g : Msg) : State :=
  let x : Member := { chip := msgNat g 2 2 % 4096, serial := msgNat g 4 8, root := msgNat g 12 1 == 1 }
  let kind := msgNat g 13 1
  let near := g.src = (s.port p).peer
  if s.valley.joined && msgNat g 0 2 != s.valley.id then
    if near then
      let s := s.updPort p fun y => { y with otherValley := true }
      let s := if kind = 0 then s.sendPort p (s.joinMsg x.chip 1) else s
      if s.valley.joining.isEmpty then s else s.joinFails ST.valleyMismatch
    else s
  else
    let s := if near then s.updPort p fun y => { y with otherValley := false } else s
    if kind = 2 then
      if x.chip = s.chip && x.serial = s.sec.serial.toNat then
        (if s.valley.joining.isEmpty then s else s.joinFails ST.chipIdConflict)
      else if g.hops < 16 then s.flood g (some p) else s
    else if x.chip = s.chip then
      if x.serial = s.sec.serial.toNat then s
      else
        let s := if s.valley.joined then
            s.sendPort p { typ := mJoin, src := s.chip, dst := x.chip, len := 1,
                           data := joinData s.valley.id x.chip x.serial (b2n x.root) 2 }
          else s
        if s.valley.joining.isEmpty then s else s.joinFails ST.chipIdConflict
    else if s.valley.members.any (fun m => m.chip == x.chip && m.serial != x.serial) then
      s.sendPort p { typ := mJoin, src := s.chip, dst := x.chip, len := 1,
                     data := joinData (msgNat g 0 2) x.chip x.serial (b2n x.root) 2 }
    else if s.valley.lost.any (fun l => l.1 == x.chip && decide (s.now < l.2 + 100000000)) then s
    else
      let s := s.takeMember p g x kind
      let s := if near then { s with valley := { s.valley with waitingJoin := s.valley.waitingJoin.filter (· != p) } } else s
      s.joinDone

/-- JOIN. -/
def execJoin (p : Nat) (g : Msg) (s : State) : Host.Outcome State Fault Refusal :=
  run State.core s fun s => s.arrive p g fun s => if g.typ != mJoin then s else s.join p g

/-! ### Heartbeats (R371) and Valley time (R32) -/

/-- Ports whose neighbours lead to the time root, best first: fewest hops, then the lower port number (R370). -/
def State.parent (s : State) : Option Nat :=
  let l := (List.range 24).filter fun p =>
    (s.port p).live && !(s.port p).otherValley && (s.port p).echo.isSome && (s.port p).peerRoot == s.timeRoot
  l.foldl (fun a p => match a with
    | none => some p
    | some q => if (s.port p).peerHops < (s.port q).peerHops then some p else some q) none

/-- Hops of this chip to the time root. -/
def State.rootHops (s : State) : Nat :=
  if s.timeRoot = s.chip then 0 else match s.parent with
    | some p => (s.port p).peerHops + 1
    | none => 31

/-- 0 NORMAL, 1 THROTTLED, 2 WITHDRAWN. -/
def State.beatState (s : State) : Nat :=
  if s.boot.thermalWithdrawn then 2 else if s.slowDuty.isSome then 1 else 0

/-- HEARTBEAT: TX in bytes 0 to 7, ECHO_TX in 8 to 15, ECHO_RX in 16 to 23, the root in 24 and 25, the hops to it in 26, the
state in 27 (log entry 22). -/
def State.beat (s : State) (p : Nat) : Msg :=
  let (a, b) := (s.port p).echo.getD (0, 0)
  { typ := mHeartbeat, src := s.chip, dst := (s.port p).peer, len := 1,
    data := padTo 64 (leBytes 8 s.now ++ leBytes 8 a ++ leBytes 8 b ++ leBytes 2 s.timeRoot ++ leBytes 1 s.rootHops ++
      leBytes 1 s.beatState) }

/-- HEARTBEAT_SEND: one on every UP port, every 100 µs. -/
def execHeartbeatSend (s : State) : Host.Outcome State Fault Refusal :=
  run State.core s fun s =>
    if s.valley.beatAt.any fun t => decide (t ≤ s.now) && decide (s.now < t + 100000) then s
    else
      let s : State := { s with valley := { s.valley with beatAt := some s.now } }
      (List.range 24).foldl (fun s p => if (s.port p).live then s.sendPort p (s.beat p) else s) s

/-- The parent's offset from this chip removed: loaded at a join where R32 allows it, else by slewing. -/
def State.follow (s : State) (off : Int) : State :=
  if !s.valley.joining.isEmpty && !s.valley.timed then
    let s := if s.streams.isEmpty || 0 ≤ off then
        s.loadTime ((s.now : Int) + off).toNat
      else s.slewBy off
    State.joinDone { s with valley := { s.valley with timed := true } }
  else s.slewBy off

/-- The offset a HEARTBEAT gives (R371): ((t2 − t1) + (t3 − t4)) / 2, in whole nanoseconds as device time counts; half a nanosecond
is dropped downwards (log entry 163). -/
def beatOffset (g : Msg) (t4 : Nat) : Int :=
  (((msgNat g 16 8 : Int) - msgNat g 8 8) + ((msgNat g 0 8 : Int) - t4)) / 2

/-- HEARTBEAT received: liveness, the peer's root, hops and state; the parent's offset is followed. -/
def execHeartbeat (p : Nat) (g : Msg) (s : State) : Host.Outcome State Fault Refusal :=
  run State.core s fun s => s.arrive p g fun s =>
    if g.typ != mHeartbeat then s
    else
      let t4 := s.now
      let s := s.updPort p fun x => { x with
        echo := some (msgNat g 0 8, t4), peerRoot := msgNat g 24 2, peerHops := msgNat g 26 1, peerState := msgNat g 27 1 }
      let fresh : Bool := msgNat g 8 8 != 0 && msgNat g 16 8 != 0 && decide (t4 ≤ msgNat g 8 8 + 1000000)
      if s.valley.joined && fresh && s.timeRoot != s.chip && s.parent == some p then s.follow (beatOffset g t4) else s

/-! ### VALLEY commands -/

def effValleyJoin (s : State) (r : Req) (t : Taken) : State :=
  let ports := (List.range 24).filter fun p => (s.port p).live
  let s := s.wait r
  let s := { s with valley := { s.valley with
    joined := true, joining := s.valley.joining ++ [r], timed := false, id := eParam t.entry 0 0 16,
    root := eParam t.entry 2 0 1 == 1, expelled := false, waitingJoin := ports } }
  (s.flood (s.joinMsg 0 0) none).joinDone

/-- VALLEY_JOIN. -/
def execValleyJoin (m : Nat) (c : Cmd) (s : State) : Host.Outcome State Fault Refusal :=
  run State.core s fun s => lolin 0x0A10 m c s noCheck effValleyJoin

/-- The Valley left with a LEAVE notice; a VALLEY_JOIN under way ends. -/
def State.departValley (s : State) : State :=
  let s := if s.valley.joined then s.flood { typ := mLeave, src := s.chip, dst := 0 } none else s
  let js := s.valley.joining
  s.quit.completeAll js ST.valleyMismatch

def effValleyLeave (s : State) (r : Req) (_ : Taken) : State := s.departValley.complete r ST.ok

/-- VALLEY_LEAVE. -/
def execValleyLeave (m : Nat) (c : Cmd) (s : State) : Host.Outcome State Fault Refusal :=
  run State.core s fun s => lolin 0x0A11 m c s noCheck effValleyLeave

/-- PORT of the valid ones of the four bytes of a VALLEY_ROUTE_SET. -/
def routePorts (e : Block) : List Nat :=
  ((List.range 4).filter fun i => eParam e (2 + i) 7 1 == 1).map fun i => eParam e (2 + i) 0 5

def chkValleyRouteSet (s : State) (e : Block) (_ : Taken) : Option (Nat × Nat) :=
  if (routePorts e).any fun p => (s.port p).state == .disabled then some (ST.portDisabled, 0) else none

def effValleyRouteSet (s : State) (r : Req) (t : Taken) : State :=
  let d := eParam t.entry 0 0 12
  let x : Route := { dest := d, ports := (routePorts t.entry).dedup, hops := eParam t.entry 6 0 5, byCommand := true,
                     loopAt := (s.route d).bind (·.loopAt) }
  (State.noteRoutes { s with valley := { s.valley with routes := x :: s.valley.routes.filter (·.dest != d) } }).complete r ST.ok

/-- VALLEY_ROUTE_SET. -/
def execValleyRouteSet (m : Nat) (c : Cmd) (s : State) : Host.Outcome State Fault Refusal :=
  run State.core s fun s => lolin 0x0A12 m c s chkValleyRouteSet effValleyRouteSet

end Sys2Proof.Machine
end

