-- ==== Sys2Proof/Machine/Requests.lean ====
section
/-! DEFINITION. Requests from other chips and their answers: RD_REQ, WR_REQ, SYNC_OP with the checks of R369, responses at the requester, HOLD, RELEASE, the dedup table and the end-to-end timers (R222, R361 to R365), and the exit of a Plain from RET (R61). -/
namespace Sys2Proof.Machine
open Sys2Proof

/-! ### Serving a request (R369) -/

/-- Poisoned granules of a read, a bit each, which RD_RSP carries in its extension (log entry 22). -/
def State.poisonMask (s : State) (g : Msg) : Nat :=
  ((List.range g.len).map fun i => b2n (s.anyPoison (g.addr + 64 * i) 64) * 2 ^ i).sum

/-- A read or write that has passed its checks. A write is recorded for the dedup table with its end-of-write stamp. -/
def State.serveMem (s : State) (g : Msg) : State :=
  if g.typ = mRdReq then
    let mask := s.poisonMask g
    s.send { typ := mRdRsp, lc := g.lc, ext := if mask = 0 then none else some (mask, 0), src := s.chip, dst := g.src,
             tag := g.tag, addr := g.addr, len := g.len, part := g.part, data := s.rd g.addr (g.len * 64) }
  else
    let d := leBytes 8 s.now
    ((s.store g.addr (padTo (g.len * 64) g.data)).dedup g mWrAck d).respond g mWrAck d

/-- A request this chip holds, with the stamp its HOLDs count from (R363). -/
def State.holdReq (s : State) (g : Msg) : State :=
  if s.valley.heldReqs.any (fun h => h.1.src == g.src && h.1.tag == g.tag) then s
  else { s with valley := { s.valley with heldReqs := s.valley.heldReqs ++ [(g, s.now)] } }

def State.unholdReq (s : State) (src tag : Nat) : State :=
  { s with valley := { s.valley with heldReqs := s.valley.heldReqs.filter fun h => !(h.1.src == src && h.1.tag == tag) } }

/-- A read or write applied, refused, or held: at a Plain in RET, whose exit starts, or for a Basin that is out of
service. -/
def State.memReq (s : State) (g : Msg) : State :=
  match s.denies g with
  | some st => (s.unholdReq g.src g.tag).refuseMsg g st
  | none =>
    let ret := s.retPlains g
    if !ret.isEmpty then
      let s := ret.foldl (fun s p => (s.wakePlain p).updPlain p fun x =>
        { x with held := if x.held.contains g then x.held else x.held ++ [g] }) s
      s.holdReq g
    else if !s.servable g then s.holdReq g
    else (s.unholdReq g.src g.tag).serveMem g

/-- Entries the dedup table holds (R362). -/
def dedupSize : Nat := 131072

/-- A request that has been applied before is answered as it was then; one already held stays held. -/
def State.onceOnly (s : State) (g : Msg) (f : State → State) : State :=
  match s.dedupOf g with
  | some d => s.send d.response
  | none =>
    if s.valley.heldReqs.any (fun h => h.1.src == g.src && h.1.tag == g.tag) then s
    else if dedupSize ≤ s.valley.dedup.length then s.refuseMsg g ST.busy
    else f s

/-- RD_REQ. -/
def execRdReq (p : Nat) (g : Msg) (s : State) : Host.Outcome State Fault Refusal :=
  run State.core s fun s => s.arrive p g fun s => if g.typ != mRdReq then s else s.memReq g

/-- WR_REQ. -/
def execWrReq (p : Nat) (g : Msg) (s : State) : Host.Outcome State Fault Refusal :=
  run State.core s fun s => s.arrive p g fun s => if g.typ != mWrReq then s else s.onceOnly g fun s => s.memReq g

/-- Remote waiters that the sync hardware holds (R222). -/
def State.remoteWaiters (s : State) : Nat :=
  (s.sync.objs.map fun x => (x.waiters.filter fun w => w.owner.chip != s.chip).length).sum

/-- A SYNC_OP applied at the object it names (R222, R369): a wait is held until it is satisfied; a signal is answered at
once. A withdrawal meets a wait that is held, which leaves its queue, or has been satisfied, which gives back what it took, or has
not come, and the wait's TAG answers no later copy with an effect; giving back undoes a wait satisfied before (R186). -/
def State.syncReq (s : State) (g : Msg) : State :=
  let h := msgNat g 4 4
  let v := msgNat g 8 8
  let o : Owner := ⟨g.src, g.part, msgNat g 16 4⟩
  let answer (s : State) (typ : Nat) : State :=
    let d := leBytes 2 ST.ok ++ leBytes 1 0 ++ leBytes 1 typ
    (s.dedup g mSyncRsp d).respond g mSyncRsp d
  match (s.sobj? (g.addr % 1024)).filter fun x => x.handle == h && x.part == g.part with
  | none => s.refuseMsg g ST.badHandle
  | some x =>
    if (s.part x.part).step != 0 then s.refuseMsg g ST.partitionResetting
    else match msgNat g 0 1 with
      | 0 =>
        let (y, l) := x.wait { owner := o, value := v, tag := g.tag }
        if l.isEmpty && 4096 ≤ s.remoteWaiters then s.refuseMsg g ST.busy
        else (s.holdReq g).setObj y l
      | 1 => answer (s.signalObj x o v) x.typ
      | 2 =>
        let w : Msg := { g with tag := msgNat g 20 2 }
        match s.dedupOf w with
        | some d =>
          let took := d.response.typ == mSyncRsp && msgNat d.response 2 1 == 0 && msgNat d.response 0 2 != ST.barrierBroken
          answer (if took then s.setSignalled o (x.giveBack o v) else s) x.typ
        | none =>
          let s := if s.valley.heldReqs.any fun h => h.1.src == g.src && h.1.tag == w.tag then
              let (y, l) := x.withdraw o
              s.setObj y l
            else s
          answer (s.dedup w mRefuse (leBytes 2 ST.cancelled)) x.typ
      | _ => answer (s.setSignalled o (x.giveBack o v)) x.typ

/-- SYNC_OP. -/
def execSyncOp (p : Nat) (g : Msg) (s : State) : Host.Outcome State Fault Refusal :=
  run State.core s fun s => s.arrive p g fun s =>
    if g.typ != mSyncOp then s else (s.onceOnly g fun s => s.syncReq g).advance

/-- PLAIN_RET_EXIT_DONE: the Plain is in RUN, serves the requests and DBG_MEM accesses held for it, and partitions that wait for it are
created. -/
def execPlainRetExitDone (p : Nat) (s : State) : Host.Outcome State Fault Refusal :=
  run State.core s fun s =>
    let x := s.plain p
    if x.state == .ret && x.exiting then
      let s := s.updPlain p fun y => { y with state := .run, since := s.now, exiting := false, held := [], heldWrites := [] }
      let s := x.heldWrites.foldl (fun s g => s.hostStore g.master g.addr g.data g.ep) s
      let s := x.held.foldl (fun s g => if s.valley.heldReqs.any (fun h => h.1 == g) then s.memReq g else s) s
      let s := s.dbgServe p
      (([2 * p, 2 * p + 1].filterMap (halfOwner s)).foldl State.createReady s).advance
    else s

/-! ### Answers at the requester -/

/-- The request an answer belongs to, with its tag released; an answer to a tag that is not held is discarded (R362). -/
def State.answered (s : State) (g : Msg) (f : State → Outstanding → State) : State :=
  match s.outst g.src g.tag with
  | none => s
  | some o => f (s.releaseTag g.src g.tag) o

/-- RD_RSP: the bytes read are known; poison among them faults the job (R251). A response to a tombstoned tag or of a past epoch is
absorbed (R233), and one to a read that a SYNC_WAIT has overtaken is not kept (R184). -/
def execRdRsp (p : Nat) (g : Msg) (s : State) : Host.Outcome State Fault Refusal :=
  run State.core s fun s => s.arrive p g fun s =>
    if g.typ != mRdRsp then s
    else s.answered g fun s o =>
      if o.msg.typ != mRdReq || s.absorbs o || o.stale then s
      else
        let s := s.fillView g.src o.msg.addr (padTo (o.msg.len * 64) g.data)
        match g.ext, o.job with
        | some (m, _), some (i, d) => if m = 0 then s else (s.faultJob i 0x44 d).advance
        | _, _ => s

/-- WR_ACK: every granule is written. -/
def execWrAck (p : Nat) (g : Msg) (s : State) : Host.Outcome State Fault Refusal :=
  run State.core s fun s => s.arrive p g fun s => if g.typ != mWrAck then s else s.answered g fun s _ => s

/-- What a wait's status says: 0 satisfied, 1 on an ABANDONED lock, 2 a broken barrier. -/
def resultOf (status : Nat) : Nat := if status = ST.okAbandoned then 1 else if status = ST.barrierBroken then 2 else 0

/-- SYNC_RSP: a leading wait is satisfied or its barrier is broken; a signal has taken effect, and its descriptor has
ended. Locks released and arrivals made there are noted for R226. -/
def execSyncRsp (p : Nat) (g : Msg) (s : State) : Host.Outcome State Fault Refusal :=
  run State.core s fun s => s.arrive p g fun s =>
    if g.typ != mSyncRsp then s
    else s.answered g fun s o =>
      let h := msgNat o.msg 4 4
      let typ := msgNat g 3 1
      match o.job with
      | none => s
      | some (i, d) =>
        if msgNat o.msg 0 1 = 0 then
          (s.satisfied i g.src h typ (msgNat o.msg 8 8) (resultOf (msgNat g 0 2)) (msgNat g 2 1 == 1)).advance
        else
          let s := s.updStream i fun x => { x with
            held := if typ = 0 then x.held.erase (g.src, h)
                    else if typ = 2 && !x.held.contains (g.src, h) then x.held ++ [(g.src, h)] else x.held }
          ((s.markEnded i d false).endHead i).advance

/-- The REFUSE of a request: ST_BUSY sends it again after 10 µs, under its tag (R222, R362); any other faults the job with
REMOTE_DENIED. -/
def State.refused (s : State) (g : Msg) : State :=
  match s.outst g.src g.tag with
  | none => s
  | some o =>
    if msgNat g 0 2 = ST.busy then s.updOut g.src g.tag fun y => { y with resendAt := some (s.now + 10000) }
    else
      let s := s.releaseTag g.src g.tag
      match o.job with
      | some (i, d) => (s.faultJob i 0x42 d).advance
      | none => s

/-- REFUSE, from a port or for a request of this chip's own that its HOPS limit discarded. -/
def execRefuse (p : Nat) (g : Msg) (s : State) : Host.Outcome State Fault Refusal :=
  run State.core s fun s =>
    if g.typ != mRefuse then s
    else if s.valley.selfRsp.contains g then
      State.refused { s with valley := { s.valley with selfRsp := s.valley.selfRsp.erase g } } g
    else s.arrive p g fun s => s.refused g

/-- HOLD: the request's timer starts again (R363). -/
def execHold (p : Nat) (g : Msg) (s : State) : Host.Outcome State Fault Refusal :=
  run State.core s fun s => s.arrive p g fun s =>
    if g.typ != mHold then s else s.updOut g.src g.tag fun o => { o with since := s.now }

/-- HOLD_TIMER: a held request that can be served now is served; one held for 2 ms since its arrival or its last HOLD
sends HOLD. -/
def execHoldTimer (src tag : Nat) (s : State) : Host.Outcome State Fault Refusal :=
  run State.core s fun s =>
    match s.valley.heldReqs.find? fun h => h.1.src == src && h.1.tag == tag with
    | none => s
    | some (g, t) =>
      if g.typ != mSyncOp && s.servable g && (s.retPlains g).isEmpty then s.memReq g
      else if t + 2000000 ≤ s.now then
        let s := { s with valley := { s.valley with heldReqs := s.valley.heldReqs.map fun (h : Msg × Nat) =>
          if h.1.src == src && h.1.tag == tag then (h.1, s.now) else h } }
        s.respond g mHold []
      else s

/-- RELEASE: the dedup entry of its tag retires. -/
def execRelease (p : Nat) (g : Msg) (s : State) : Host.Outcome State Fault Refusal :=
  run State.core s fun s => s.arrive p g fun s =>
    if g.typ != mRelease then s
    else { s with valley := { s.valley with dedup := s.valley.dedup.filter fun d => !(d.src == g.src && d.tag == g.tag) } }

/-- REQUEST_TIMER_EXPIRY: 4 ms without an answer or a HOLD: the request goes out again over the routes as they are; the
sixteenth time its destination is lost. -/
def execRequestTimerExpiry (dst tag : Nat) (s : State) : Host.Outcome State Fault Refusal :=
  run State.core s fun s =>
    match s.outst dst tag with
    | none => s
    | some o =>
      if s.now < o.since + 4000000 then s
      else if 15 ≤ o.expiries then s.declareLost dst 3
      else (s.updOut dst tag fun y => { y with expiries := y.expiries + 1, since := s.now }).send o.msg

/-- DEDUP_ENTRY_EXPIRY: 100 ms after it was made. -/
def execDedupEntryExpiry (src tag : Nat) (s : State) : Host.Outcome State Fault Refusal :=
  run State.core s fun s =>
    { s with valley := { s.valley with dedup := s.valley.dedup.filter fun d =>
        !(d.src == src && d.tag == tag && decide (d.made + 100000000 ≤ s.now)) } }

/-- DEDUP_FULL_RESEND: 10 µs after ST_BUSY the request goes out again. -/
def execDedupFullResend (dst tag : Nat) (s : State) : Host.Outcome State Fault Refusal :=
  run State.core s fun s =>
    match s.outst dst tag with
    | none => s
    | some o =>
      if o.resendAt.any (· ≤ s.now) then
        (s.updOut dst tag fun y => { y with resendAt := none, since := s.now }).send o.msg
      else s

end Sys2Proof.Machine
end

