-- ==== Sys2Proof/Machine/Flits.lean ====
section
/-! DEFINITION. The Coeno link (R354 to R360): flits received, checked, acknowledged and NAKed, the retry budget, and the flit a port direction sends next. -/
namespace Sys2Proof.Machine
open Sys2Proof

/-- Payload bytes of a flit. -/
def flitPayload : Nat := 236

/-! ### Reception -/

/-- Whether a SEQ has been acknowledged once ACK stands at `ack`: it lies at most 2,047 behind. -/
def coveredBy (ack seq : Nat) : Bool := (ack + 4096 - seq) % 4096 < 2048

/-- ACK applied: the replay buffer and the messages that end in acknowledged flits go. The answer says whether any flit
was newly acknowledged. -/
def Port.ackTo (x : Port) (ack : Nat) : Port × Bool :=
  let keep := x.replay.filter fun f => !coveredBy ack f.seq
  ({ x with
      txAcked := ack, replay := keep,
      replayFrom := x.replayFrom.filter fun q => keep.any (·.seq == q),
      unacked := x.unacked.filter fun u => match u.1 with
        | some q => !coveredBy ack q
        | none => true },
    decide (keep.length < x.replay.length))

/-- The retry budget of a direction is exceeded (R359): a PORT reset; within 1 s after the retrain of an earlier one, the
fault is lasting: lanes over the FEC limit, which the spec gives no register for, are recorded (log entry 56). -/
def State.budgetExceeded (s : State) (p : Nat) : State :=
  let again : Bool := (s.port p).budgetRetrain.any fun t => s.now < t + 1000000000
  let s := if again then
      let (v, s) := s.free
      let s := s.recordLanes p (BitVec.ofNat 8 v)
      (s.emit [0] EV.passErrorLasting 1 0 (pay [(0, p), (1, v % 256)])).updPort p fun x => { x with full := true }
    else s
  (s.updPort p fun x => { x with budgetHit := true }).portReset p

/-- NAK: a replay starts at the first flit that is not acknowledged. -/
def State.nak (s : State) (p : Nat) : State :=
  let x := s.port p
  match x.replay with
  | [] => s
  | f :: _ =>
    let starts := x.replays.filter (fun t => s.now < t + 1000000) ++ [s.now]
    let spent := 64 ≤ starts.length || 4 ≤ x.flitReplays
    let s := s.updPort p fun y => { y with replayFrom := some f.seq, flitReplays := y.flitReplays + 1, replays := starts }
    if spent then s.budgetExceeded p else s

/-- ACK and NAK of a flit that passed its check. A flit replayed once and then accepted is a transient error (R358). -/
def State.linkAck (s : State) (p : Nat) (f : Flit) : State :=
  let (x, moved) := (s.port p).ackTo f.ack
  let once : Bool := moved && x.flitReplays == 1
  let s := s.updPort p fun _ => if moved then { x with flitReplays := 0 } else x
  let s := if once then s.transient 0x0A p else s
  if f.nak then s.nak p else s

/-- A flit heard: the port is not idle, and what FEC corrected in it is a free value (log entry 56). -/
def State.flitHeard (s : State) (p : Nat) : State :=
  let (v, s) := s.free
  s.updPort p fun x => { x with lastFlit := s.now, corrected := sat 32 (x.corrected + v % 3) }

/-- A replay asked for with the next flit sent. -/
def State.askReplay (s : State) (p : Nat) : State := s.updPort p fun x => { x with nakDue := true }

/-- The acknowledgement and the credits that a flit's header brings. -/
def State.flitAcked (s : State) (p : Nat) (f : Flit) : State :=
  (s.linkAck p f).updPort p fun x => { x with
    credits := updAt x.credits f.crVc fun c => min (c + f.credits) ([192, 192, 256, 16].getD f.crVc 0) }

/-- A flit in sequence taken into its channel's buffer; a request wakes a chip in QSC, and messages for other chips go on. -/
def State.flitTaken (s : State) (p : Nat) (f : Flit) : State :=
  let s := s.updPort p fun x => { x with
    rxNext := (x.rxNext + 1) % 4096, rx := updAt x.rx f.vc (· ++ padTo flitPayload f.payload) }
  let s := if (s.power.chip == .qsc || s.power.entry.any (·.1 == .qsc)) && (f.vc == 0 || f.vc == 2) then s.wake else s
  s.transitAll p f.vc

/-- FLIT_RECEIVE: a failed CHECK or a SEQ gap discards the flit and asks for a replay; a flit accepted before is discarded;
any other is taken, and what it carries for other chips goes on. In QSC a flit of REQ or COLL is a wake source (R73). -/
def execFlitReceive (p : Nat) (f : Flit) (s : State) : Host.Outcome State Fault Refusal :=
  run State.core s fun s =>
    if !(s.port p).live then s
    else
      let s := s.flitHeard p
      if !f.checkOk then s.askReplay p
      else
        let s := s.flitAcked p f
        if f.idle || !(s.port p).live then s
        else if f.seq % 4096 = (s.port p).rxNext then s.flitTaken p f
        else if coveredBy ((s.port p).rxNext + 4095) f.seq then s
        else s.askReplay p

/-! ### The order of sending (R360) -/

/-- Partition and stream that a message of this chip is sent for. -/
def State.msgHolder (s : State) (g : Msg) : Nat × Option Nat :=
  let i : Option Nat :=
    if vcOf g.typ = 0 then (s.outst g.dst g.tag).bind fun o => o.job.map (·.1)
    else if g.typ = mCollData then
      (s.groupBy g.part (msgNat g 0 4)).bind fun x => (x.colls.find? (·.seq == msgNat g 4 4)).map (·.s)
    else none
  (g.part, (i.bind s.stream?).map Stream.handle)

/-- Reservations a message draws on at a port. -/
def State.passHolding (s : State) (p : Nat) (h : Nat × Option Nat) : List Resv :=
  let l := s.ledger.resvs.filter fun r => r.kind == 1 && r.index == p && r.inEffect && r.part == h.1
  let own := l.filter fun r => r.stream != 0 && h.2 == some r.stream
  if own.isEmpty then l.filter (·.stream == 0) else own

/-- The number under which a holder stands in the round robin. -/
def holderNumber (h : Nat × Option Nat) : Nat := h.2.getD (hPart h.1)

/-- The message a port serves next among those of the channels allowed, and the deficits after it. Best effort waits while the
port is OVERCOMMITTED outbound (R265). -/
def State.pickTx (s : State) (p : Nat) (vcs : Nat → Bool) : Option (Nat × List (Nat × Nat)) :=
  let x := s.port p
  let l := (x.txq.mapIdx fun i g => (i, g)).filter fun a => vcs (vcOf a.2.typ)
  let plain (o : Option (Nat × Msg)) : Option (Nat × List (Nat × Nat)) := o.map fun a => (a.1, x.deficit)
  let work := l.filter fun a => vcOf a.2.typ == 0 || vcOf a.2.typ == 2
  let mine (g : Msg) : Bool := g.src == s.chip
  let tok (g : Msg) : Bool := 0 < tokensOf (s.passHolding p (s.msgHolder g))
  let paid := work.filter fun a => mine a.2 && tok a.2
  let holders := (paid.map fun a => holderNumber (s.msgHolder a.2)).dedup
  let heads := holders.filterMap fun h =>
    (paid.find? fun a => holderNumber (s.msgHolder a.2) == h).map fun a =>
      (h, ({ part := a.2.part, stream := none, read := false, lc := false, mnt := false, addr := 0,
             bytes := (msgBytes a.2).length, deadline := 0, seq := a.1 } : BasinReq),
        grantOf (s.passHolding p (s.msgHolder a.2)))
  let ring := x.deficit ++ (holders.filter fun h => x.deficit.all (·.1 != h)).map fun h => (h, 0)
  let deadline (a : Nat × Msg) : Nat := (a.2.ext.map (·.1)).getD 0
  let lc := (work.filter fun a => mine a.2 && vcOf a.2.typ == 0 && a.2.lc).foldl (fun (b : Option (Nat × Msg)) a => match b with
    | none => some a
    | some c => if deadline a < deadline c then some a else some c) none
  [plain (l.find? fun a => vcOf a.2.typ == 3), plain (l.find? fun a => vcOf a.2.typ == 1),
    (drr heads (128 * (ring.length + 1)) ring).map fun r => (r.1.seq, r.2),
    plain (work.find? fun a => !mine a.2), plain lc,
    if s.squeezed 1 p 0 then none else plain work.head?].findSome? id

/-- A message taken from the queue: its bytes stand before the port, and it spends its holder's tokens. -/
def State.startTx (s : State) (p i : Nat) (deficit : List (Nat × Nat)) : State :=
  match (s.port p).txq[i]? with
  | none => s
  | some g =>
    let b := msgBytes g
    let ids := (s.passHolding p (s.msgHolder g)).map (·.id)
    let s := if g.src = s.chip && (vcOf g.typ = 0 || vcOf g.typ = 2) then
        { s with ledger := { s.ledger with resvs := spend b.length ids s.ledger.resvs } } else s
    s.updPort p fun x => { x with
      txq := x.txq.eraseIdx i, tx := updAt x.tx (vcOf g.typ) (· ++ b), unacked := x.unacked ++ [(none, g)], deficit := deficit }

/-- Messages of a channel packed until the next flit is full or none is left. -/
def State.fillTx (s : State) (p vc : Nat) : Nat → State
  | 0 => s
  | n + 1 =>
    if flitPayload ≤ ((s.port p).tx.getD vc []).length then s
    else match s.pickTx p (· == vc) with
      | some (i, d) => State.fillTx (s.startTx p i d) p vc n
      | none => s

/-- The channel the next flit is of: a message whose flits have begun goes on ahead of others of its rank (log entry 57). -/
def State.nextVc (s : State) (p : Nat) : Option Nat :=
  let x := s.port p
  let credit (v : Nat) : Bool := 0 < x.credits.getD v 0
  let begun (v : Nat) : Bool := credit v && !(x.tx.getD v []).isEmpty
  let waits (v : Nat) : Bool := credit v && x.txq.any fun g => vcOf g.typ == v
  if begun 3 || waits 3 then some 3
  else if begun 1 || waits 1 then some 1
  else if begun 0 then some 0
  else if begun 2 then some 2
  else match s.pickTx p credit with
    | some (i, _) => (x.txq[i]?).map fun g => vcOf g.typ
    | none => none

/-! ### Sending -/

/-- Keys turn over before 2^40 flit positions (R355): the count starts again under the next key. In BLANK there is none. -/
def State.countFlit (s : State) (p : Nat) : State :=
  s.updPort p fun x =>
    if s.sec.lifecycle = 0 then x
    else if x.keyCount + 2 < 2 ^ 40 then { x with keyCount := x.keyCount + 1 }
    else { x with keyCount := 0, keyNumber := x.keyNumber + 1, keyPhase := !x.keyPhase }

/-- The channel whose credits go back with the next flit. -/
def Port.creditVc (x : Port) : Nat := ((List.range 4).find? fun v => 0 < x.owed.getD v 0).getD 0

/-- Header fields that every flit carries as it leaves. -/
def Port.header (x : Port) (f : Flit) : Flit :=
  { f with
    ack := (x.rxNext + 4095) % 4096, nak := x.nakDue, keyPhase := x.keyPhase, crVc := x.creditVc,
    credits := x.owed.getD x.creditVc 0 }

/-- Bytes 0 to 11 of a flit (Table 19-2). -/
def flitHead (f : Flit) : List Byte :=
  leBytes 4 (f.seq % 4096 + f.ack % 4096 * 2 ^ 12 + b2n f.nak * 2 ^ 24 + f.vc % 4 * 2 ^ 25 + b2n f.idle * 2 ^ 27 + b2n f.keyPhase * 2 ^ 28) ++
    leBytes 1 f.first ++ leBytes 1 (f.crVc % 4) ++ leBytes 2 f.credits ++ leBytes 4 0

/-- The 256 bytes of a flit as a port sends them: the payload under the direction's key and the tag's 64 bits, with the nonce of the
salt and the count of flit positions (R355); in BLANK the payload as it is and its CRC-64 (R354; log entry 160). -/
def State.flitBytes (s : State) (p : Nat) (f : Flit) : List Byte :=
  let x := s.port p
  let head := flitHead f
  let body := padTo flitPayload f.payload
  let nonce : BitVec 96 := Config.portSalt x.keySession p x.keyNumber ++ BitVec.ofNat 64 x.keyCount
  if s.sec.lifecycle = 0 then head ++ body ++ leBytes 8 (Config.crc64 (head ++ body)).toNat
  else head ++ padTo flitPayload (Config.gcmText x.keySession x.keyNumber p nonce head body) ++
    leBytes 8 (Config.gcmTag x.keySession x.keyNumber p nonce head body).toNat

/-- A flit leaves, and with it the NAK and the credits. -/
def State.left (s : State) (p : Nat) (f : Flit) : State :=
  (s.updPort p fun x => { x with
    wire := s.flitBytes p (x.header f), nakDue := false, owed := updAt x.owed x.creditVc fun _ => 0 }).countFlit p

/-- A flit without a payload, whose SEQ is not consumed. -/
def Port.idleFlit (x : Port) : Flit := { seq := x.txSeq, ack := 0, nak := false, vc := 0, idle := true }

/-- A new flit of a channel. Messages that end in it are noted with its SEQ. -/
def State.newFlit (s : State) (p vc : Nat) : State :=
  let l0 := ((s.port p).tx.getD vc []).length
  let s := s.fillTx p vc 16
  let x := s.port p
  let bytes := x.tx.getD vc []
  let rest := bytes.drop flitPayload
  let f := x.header { seq := x.txSeq, ack := 0, nak := false, vc := vc, idle := false,
                      first := if l0 < flitPayload && l0 < bytes.length then l0 else 255,
                      payload := padTo flitPayload (bytes.take flitPayload) }
  let mine (u : Option Nat × Msg) : Bool := u.1.isNone && vcOf u.2.typ == vc
  let n := (x.unacked.filter mine).length - (if rest.isEmpty then 0 else 1)
  let (_, un) := x.unacked.foldl (fun (a : Nat × List (Option Nat × Msg)) u =>
    if mine u && a.1 < n then (a.1 + 1, a.2 ++ [(some x.txSeq, u.2)]) else (a.1, a.2 ++ [u])) (0, [])
  let s := s.updPort p fun y => { y with
    txSeq := (y.txSeq + 1) % 4096, replay := y.replay ++ [f], tx := updAt y.tx vc (fun _ => rest), unacked := un,
    credits := updAt y.credits vc (· - 1) }
  s.left p f

/-- FLIT_SEND: a replay under way goes on; else the next flit by R360 leaves, as far as the replay buffer of 1,024 has
room; else an IDLE flit. -/
def execFlitSend (p : Nat) (s : State) : Host.Outcome State Fault Refusal :=
  run State.core s fun s =>
    let s := s.windowDue
    let x := s.port p
    if !x.live then s
    else match x.replayFrom with
      | some q =>
        let due := x.replay.dropWhile (·.seq != q)
        (s.updPort p fun y => { y with replayFrom := (due.drop 1).head?.map (·.seq) }).left p (due.headD x.idleFlit)
      | none =>
        if 1024 ≤ x.replay.length then s.left p x.idleFlit
        else match s.nextVc p with
          | some vc => s.newFlit p vc
          | none => s.left p x.idleFlit

end Sys2Proof.Machine
end

