-- ==== Sys2Proof/Machine/Media.lean ====
section
/-! DEFINITION. Media contexts: placement on cores (R386), the MEDIA commands (Table 8-10, R172, R388, R404), the frame latch with its judgement of layers (R389 to R392). -/
namespace Sys2Proof.Machine
open Sys2Proof

/-! ### Contexts -/

def State.enc? (s : State) (i : Nat) : Option Enc := s.media.encs.find? (·.index == i)
def State.updEnc (s : State) (i : Nat) (f : Enc → Enc) : State :=
  { s with media := { s.media with encs := s.media.encs.map fun x => if x.index == i then f x else x } }
def State.dec? (s : State) (i : Nat) : Option Dec := s.media.decs.find? (·.index == i)
def State.updDec (s : State) (i : Nat) (f : Dec → Dec) : State :=
  { s with media := { s.media with decs := s.media.decs.map fun x => if x.index == i then f x else x } }

/-- Contexts of each kind (R386). -/
def encContexts : Nat := 2048
def decContexts : Nat := 256

/-! ### Placement (R386) -/

/-- Pixels per second of an encoder core and of a decoder core, by CODEC (Table 20-1). -/
def encodeRate (codec : Nat) : Nat := if codec = 0 then 1100000000 else 800000000
def decodeRate (codec : Nat) : Nat := if codec = 0 then 1000000000 else if codec = 1 then 800000000 else 600000000

/-- Demand per core in 0.01 % of its time. -/
def encDemand (codec w h fps cores : Nat) : Nat := ceilDiv (10000 * w * h * fps) (cores * encodeRate codec)
def decDemand (codec w h : Nat) : Nat := ceilDiv (10000 * w * h * 30) (decodeRate codec)

/-- Whether a core may take a demand of a partition. -/
def State.qualifies (s : State) (p d core : Nat) : Bool :=
  bit s.boot.mediaOk.toNat core &&
  decide (resvSum ((s.standing 2 core).filter (·.part == p)) + d ≤ (s.part p).cfg.mediaShare * 100) &&
  (s.admission 2 core d p).isNone

/-- Core time not reserved. -/
def State.freeTime (s : State) (core : Nat) : Nat := 10000 - resvSum (s.standing 2 core)

/-- A core placed in the order of most free time, then lower index. -/
def State.rankCore (s : State) (c : Nat) : List Nat → List Nat
  | [] => [c]
  | d :: r => if s.freeTime d < s.freeTime c then c :: d :: r else d :: s.rankCore c r

/-- The cores a context of `n` parts takes, among those given. -/
def State.takeCores (s : State) (p d n : Nat) (among : List Nat) : Option (List Nat) :=
  let l := (among.filter (s.qualifies p d)).foldl (fun a c => s.rankCore c a) []
  if 10000 < d || l.length < n then none else some (l.take n)

/-- A GOLD reservation on each core taken. -/
def State.reserveCores (s : State) (p d : Nat) : List Nat → List Nat × State
  | [] => ([], s)
  | c :: r =>
    let (id, s) := s.reserve 2 c 0 d p 0
    let (ids, s) := State.reserveCores s p d r
    (id :: ids, s)

def encCores : List Nat := List.range 12
def decCores : List Nat := [12, 13, 14, 15]

/-! ### MEDIA_ENC_OPEN, MEDIA_ENC_CLOSE -/

/-- Bytes of the three frame buffers of a context (R388), in whole frames of memory. -/
def frameBytes (w h : Nat) (ten : Bool) : Nat := w * h * 3 / 2 * (if ten then 2 else 1)
def bufferBytes (w h : Nat) (ten : Bool) : Nat := ceilDiv (3 * frameBytes w h ten) 4096 * 4096

/-- What a MEDIA_ENC_OPEN asks for: demand, cores, buffer. -/
def State.encPlan (s : State) (p : Nat) (e : Block) : Option (Nat × List Nat × Nat) :=
  let d := encDemand (eParam e 0 0 1) (eParam e 2 0 16) (eParam e 4 0 16) (eParam e 6 0 8) (eParam e 1 0 4)
  match s.takeCores p d (eParam e 1 0 4) encCores,
      s.findFrames false 0 (bufferBytes (eParam e 2 0 16) (eParam e 4 0 16) (eParam e 0 1 1 == 1) / 4096) with
  | some cs, some a => some (d, cs, a)
  | _, _ => none

def chkMediaEncOpen (m : Nat) (s : State) (e : Block) (_ : Taken) : Option (Nat × Nat) :=
  if encContexts ≤ s.media.encs.length then some (ST.busy, 0)
  else if (s.encPlan (mbPart m) e).isNone then some (ST.mediaCapacity, 0)
  else none

def effMediaEncOpen (s : State) (r : Req) (t : Taken) : State :=
  let e := t.entry
  let p := mbPart r.m
  match s.encPlan p e with
  | none => s
  | some (d, cs, a) =>
    let i := pickFree s.now ((List.range encContexts).filter fun i => s.media.encs.all (·.index != i))
    let (ids, s) := s.reserveCores p d cs
    let ten := eParam e 0 1 1 == 1
    let s := s.alloc { part := p, base := a, size := bufferBytes (eParam e 2 0 16) (eParam e 4 0 16) ten }
    let x : Enc := { index := i, part := p, av1 := eParam e 0 0 1 == 1, ten := ten, split := eParam e 0 2 2, cores := cs,
                     width := eParam e 2 0 16, height := eParam e 4 0 16, fps := eParam e 6 0 8, bitrate := eParam e 8 0 32,
                     irPeriod := eParam e 12 0 16, resv := ids, buffer := a, openAt := s.now }
    { s with media := { s.media with encs := s.media.encs ++ [x] } }.complete r ST.ok (hMedia i)

/-- MEDIA_ENC_OPEN. -/
def execMediaEncOpen (m : Nat) (c : Cmd) (s : State) : Host.Outcome State Fault Refusal :=
  run State.core s fun s => lolin 0x0901 m c s (chkMediaEncOpen m) effMediaEncOpen

/-- The picture in progress ends before the context goes (log entry 61). -/
def effMediaEncClose (s : State) (r : Req) (t : Taken) : State :=
  match s.encOf (mbPart r.m) (eTarget t.entry) with
  | none => s
  | some x =>
    if x.closing.isSome then s.complete r ST.ok
    else if x.frame.isSome then (s.wait r).updEnc x.index fun y => { y with closing := some r, waiting := none }
    else (s.dropEnc x).complete r ST.ok

/-- MEDIA_ENC_CLOSE. -/
def execMediaEncClose (m : Nat) (c : Cmd) (s : State) : Host.Outcome State Fault Refusal :=
  run State.core s fun s => lolin 0x0902 m c s noCheck effMediaEncClose

/-! ### MEDIA_DEC_OPEN, MEDIA_DEC_FLUSH, MEDIA_DEC_CLOSE -/

def chkMediaDecOpen (m : Nat) (s : State) (e : Block) (_ : Taken) : Option (Nat × Nat) :=
  let p := mbPart m
  let w := eParam e 2 0 16
  let h := eParam e 4 0 16
  if decContexts ≤ s.media.decs.length then some (ST.busy, 0)
  else if (s.takeCores p (decDemand (eParam e 0 0 2) w h) 1 decCores).isNone then some (ST.mediaCapacity, 0)
  else none

def effMediaDecOpen (s : State) (r : Req) (t : Taken) : State :=
  let e := t.entry
  let p := mbPart r.m
  let d := decDemand (eParam e 0 0 2) (eParam e 2 0 16) (eParam e 4 0 16)
  match s.takeCores p d 1 decCores with
  | none => s
  | some cs =>
    let i := pickFree s.now ((List.range decContexts).filter fun i => s.media.decs.all (·.index != i))
    let (ids, s) := s.reserveCores p d cs
    let x : Dec := { index := i, part := p, codec := eParam e 0 0 2, core := cs.headD 12, maxW := eParam e 2 0 16,
                     maxH := eParam e 4 0 16, outAddr := eParam e 8 0 64, outFrames := eParam e 16 0 8, resv := ids }
    { s with media := { s.media with decs := s.media.decs ++ [x] } }.complete r ST.ok (hMedia (i + 2048))

/-- MEDIA_DEC_OPEN. -/
def execMediaDecOpen (m : Nat) (c : Cmd) (s : State) : Host.Outcome State Fault Refusal :=
  run State.core s fun s => lolin 0x0903 m c s (chkMediaDecOpen m) effMediaDecOpen

/-- Slots a decoder holds handed back to HOST, its undecoded input with them; the frames not yet output are gone and the counts start
again from 0, the ring of output buffers with them (R404, log entry 62). -/
def State.decFlush (s : State) (x : Dec) : State :=
  let s := (s.voidRow (2048 + x.index))
  let s := x.slots.foldl (fun s k => s.handBack (x.part + 1) k.1 k.2.1) s
  s.updDec x.index fun y => { y with
    stopped := false, decoded := 0, outputs := 0, bytes := 0, pos := 0, seenRap := false, slots := [], headUsed := 0, began := none,
    held := [] }

/-- RESULT is the number of frames discarded: those decoded and not output, and those in the undecoded input, whose number is open
(log entry 62). -/
def effMediaDecFlush (s : State) (r : Req) (t : Taken) : State :=
  match s.decOf (mbPart r.m) (eTarget t.entry) with
  | none => s
  | some x =>
    let (v, s) := s.free
    (s.decFlush x).complete r ST.ok (if x.slots.isEmpty then x.held.length else x.held.length + v)

/-- MEDIA_DEC_FLUSH. -/
def execMediaDecFlush (m : Nat) (c : Cmd) (s : State) : Host.Outcome State Fault Refusal :=
  run State.core s fun s => lolin 0x0904 m c s noCheck effMediaDecFlush

/-- Slots it holds go back to HOST (log entry 61). -/
def effMediaDecClose (s : State) (r : Req) (t : Taken) : State :=
  match s.decOf (mbPart r.m) (eTarget t.entry) with
  | none => s
  | some x => ((s.decFlush x).dropDec x).complete r ST.ok

/-- MEDIA_DEC_CLOSE. -/
def execMediaDecClose (m : Nat) (c : Cmd) (s : State) : Host.Outcome State Fault Refusal :=
  run State.core s fun s => lolin 0x0905 m c s noCheck effMediaDecClose

/-! ### MEDIA_KEY_REQUEST, MEDIA_ROI_SET, MEDIA_LAYER_SET (R172) -/

def effMediaKeyRequest (s : State) (r : Req) (t : Taken) : State :=
  match s.encOf (mbPart r.m) (eTarget t.entry) with
  | none => s
  | some x => (s.updEnc x.index fun y => { y with keyAt := some (y.keyAt.getD t.stamp) }).complete r ST.ok t.stamp

/-- MEDIA_KEY_REQUEST. -/
def execMediaKeyRequest (m : Nat) (c : Cmd) (s : State) : Host.Outcome State Fault Refusal :=
  run State.core s fun s => lolin 0x0906 m c s noCheck effMediaKeyRequest

def effMediaRoiSet (s : State) (r : Req) (t : Taken) : State :=
  let p := eParam t.entry
  match s.encOf (mbPart r.m) (eTarget t.entry) with
  | none => s
  | some x =>
    let roi : Roi := { on := p 0 3 1 == 1, qp := sgn 8 (p 1 0 8), x := p 2 0 16, y := p 4 0 16, w := p 6 0 16, h := p 8 0 16 }
    (s.updEnc x.index fun y => { y with nextRois := y.nextRois ++ [(t.stamp, p 0 0 3, roi)] }).complete r ST.ok

/-- MEDIA_ROI_SET. -/
def execMediaRoiSet (m : Nat) (c : Cmd) (s : State) : Host.Outcome State Fault Refusal :=
  run State.core s fun s => lolin 0x0907 m c s noCheck effMediaRoiSet

/-- The producer of a tensor layer is a stream opened with VIDEO naming the context; that of a decoded layer is a decoder
of the partition (log entry 63); a stream that is closing is refused as such (R168). -/
def chkMediaLayerSet (m : Nat) (s : State) (e : Block) (_ : Taken) : Option (Nat × Nat) :=
  let p := mbPart m
  let h := eParam e 4 0 32
  match eParam e 2 0 2 with
  | 0 =>
    match s.streamOf p h with
    | none => some (ST.layerProducer, 0)
    | some x =>
      if x.video != eTarget e then some (ST.layerProducer, 0)
      else if x.state != .opened then some (ST.streamClosing, 0)
      else none
  | 2 => if (s.decOf p h).isSome then none else some (ST.layerProducer, 0)
  | _ => none

def effMediaLayerSet (s : State) (r : Req) (t : Taken) : State :=
  let p := eParam t.entry
  match s.encOf (mbPart r.m) (eTarget t.entry) with
  | none => s
  | some x =>
    let l : Layer := { on := p 0 3 1 == 1, policy := p 0 4 2, grace := p 1 0 8, source := p 2 0 2, producer := p 4 0 32,
                       buffer := p 8 0 52, x := p 16 0 16, y := p 18 0 16, w := p 20 0 16, h := p 22 0 16, alpha := p 24 0 8 }
    (s.updEnc x.index fun y => { y with nextLayers := y.nextLayers ++ [(t.stamp, p 0 0 3, l)] }).complete r ST.ok

/-- MEDIA_LAYER_SET. -/
def execMediaLayerSet (m : Nat) (c : Cmd) (s : State) : Host.Outcome State Fault Refusal :=
  run State.core s fun s => lolin 0x0908 m c s (chkMediaLayerSet m) effMediaLayerSet

/-! ### The frame clock (R389) -/

/-- The phase of a context. -/
def Enc.phase (x : Enc) : Nat := x.index * 250000 % (1000000000 / x.fps)

/-- The k of a latch stamp, if this is one. -/
def Enc.latchAt (x : Enc) (t : Nat) : Option Nat :=
  if t < x.phase then none
  else
    let d := t - x.phase
    let k := ceilDiv (d * x.fps) 1000000000
    if k * 1000000000 / x.fps = d then some k else none

/-! ### Layers at a latch (R390 to R392) -/

/-- A layer's settings replaced: its counter and run go on; its content too while source and producer stay (log entry 64). -/
def Layer.set (old new : Layer) : Layer :=
  { new with
    stale := old.stale, inRun := old.inRun, published := old.published,
    current := if old.source = new.source ∧ old.producer = new.producer then old.current else none }

/-- Settings that have come by a latch in force (R172). -/
def Enc.settle (x : Enc) (t : Nat) : Enc :=
  let ls := (x.nextLayers.filter (·.1 ≤ t)).foldl (fun l n => updAt l n.2.1 fun o => o.set n.2.2) x.layers
  let rs := (x.nextRois.filter (·.1 ≤ t)).foldl (fun l n => updAt l n.2.1 fun _ => n.2.2) x.rois
  let due : Bool := x.keyAt.any fun k => k ≤ t
  { x with
    layers := ls, rois := rs, nextLayers := x.nextLayers.filter fun n => t < n.1, nextRois := x.nextRois.filter fun n => t < n.1,
    keyDue := x.keyDue || due, keyAt := if due then none else x.keyAt }

/-- Whether a tensor is one the compositor reads (R390). -/
def layerTensor (t : Tensor) (w h : Nat) : Bool :=
  (t.fmt == 0x01 || t.fmt == 0x02 || t.fmt == 0x03) && t.dim 1 == w && t.dim 2 == h &&
  ((t.layout == 0 && t.rank == 3 && (t.dim 0 == 3 || t.dim 0 == 4)) ||
   (t.layout == 1 && t.rank == 5 && t.dim 0 == 16 && t.dim 3 == 1 && t.dim 4 == 1))

/-- Whether a layer's descriptor can be read and meets R390, and its tensor lies where the partition may read (R241; log
entry 125). -/
def State.readable (s : State) (p : Nat) (l : Layer) : Bool :=
  let ok (t : Tensor) : Bool := layerTensor t l.w l.h && t.area.all fun r => !s.isLocal r.1 || rangeOk s p (vLocal r.1) r.2
  if l.source = 2 then true
  else if !s.isLocal l.buffer then ok (tensorOf (BitVec.ofNat 512 (s.vNat l.buffer 64)))
  else rangeOk s p (vLocal l.buffer) 64 && !s.anyPoison (vLocal l.buffer) 64 && ok (s.tensor l.buffer)

/-- The newest content of a layer with a ready stamp by `t`: of what COMPOSE published, only what the settings in force
accept; of a decoder, a frame not shown yet. The stamp and the address. -/
def State.content (s : State) (p : Nat) (l : Layer) (t : Nat) : Option (Nat × Nat) :=
  if l.source = 2 then
    match (s.decOf p l.producer).bind (·.latest) with
    | some (r, a) => if r ≤ t && l.current != some r then some (r, a) else none
    | none => none
  else
    ((l.published.filter fun c => decide (c.1 ≤ t) && c.2.2 == l.producer && l.source == 0 && l.on).foldl (fun a c => match a with
      | none => some c
      | some b => if b.1 ≤ c.1 then some c else some b) none).map fun c => (c.1, if c.2.1 = 0 then l.buffer else c.2.1)

/-- A layer that is fresh with new content. -/
def Layer.fresh (l : Layer) (c : Nat × Nat) : Layer :=
  { l with current := some c.1, buffer := c.2, inRun := false, holding := false, shown := true }

/-- A stale layer: counted, its first of a run told, shown or not by its policy. -/
def State.staleLayer (s : State) (x : Enc) (n : Nat) (l : Layer) : State :=
  let show' : Bool := l.policy != 1 && l.current.isSome && s.readable x.part l
  let c := (l.stale + 1) % 2 ^ 32
  let s := s.updEnc x.index fun y => { y with layers := updAt y.layers n fun o =>
    { o with stale := c, inRun := true, holding := false, shown := show' } }
  if l.inRun then s
  else s.emit [x.part + 1] EV.layerStale 2 (hMedia x.index) (pay [(0, n), (4, c)]) false (some x.part)

/-- One layer judged at a latch. -/
def State.judge (s : State) (i n t : Nat) : State :=
  match s.enc? i with
  | none => s
  | some x =>
    let l := x.layers.getD n {}
    let put (f : Layer → Layer) : State := s.updEnc i fun y => { y with layers := updAt y.layers n f }
    if !l.on then put fun o => { o with shown := false, holding := false, published := [] }
    else if l.source = 1 then
      if s.readable x.part l then put fun o => o.fresh (t, o.buffer) else s.staleLayer x n l
    else match s.content x.part l t with
      | some c =>
        if s.readable x.part { l with buffer := c.2 } then put fun o => { o.fresh c with published := [] }
        else State.staleLayer (put fun o => { o with published := [] }) x n l
      | none =>
        let s := put fun o => { o with published := [] }
        if l.policy = 2 && l.grace != 0 then s.updEnc i fun y => { y with layers := updAt y.layers n fun o => { o with holding := true } }
        else s.staleLayer x n l

/-! ### Skipped frames (R400) -/

/-- A frame that is never encoded: counted, the first of a run told; a key picture it was to be passes on (R397). -/
def State.skip (s : State) (i : Nat) (f : Frame) : State :=
  match s.enc? i with
  | none => s
  | some x =>
    let n := (x.skips + 1) % 2 ^ 32
    let s := s.updEnc i fun y => { y with
      skips := n, skipRun := true, skipBefore := true, keyDue := y.keyDue || (f.key && y.waiting.isNone),
      waiting := y.waiting.map fun w => { w with key := w.key || f.key } }
    if x.skipRun then s
    else s.emit [x.part + 1] EV.frameSkipped 2 (hMedia i) (pay [(4, n)]) false (some x.part)

/-- A frame whose layers are all decided may be composed. -/
def Enc.undecided (x : Enc) : Bool := x.layers.any (·.holding)

/-- FRAME_LATCH: at a latch stamp of the context its settings come into force, its layers are judged, and the frame joins
the compositor's work in place of one that still waits. -/
def execFrameLatch (i : Nat) (s : State) : Host.Outcome State Fault Refusal :=
  run State.core s fun s =>
    match s.enc? i with
    | none => s
    | some x =>
      match x.latchAt s.now with
      | none => s
      | some k =>
        if s.now < x.openAt || x.lastLatch == some s.now || x.closing.isSome then s
        else
          let s := s.updEnc i fun y => { y.settle s.now with lastLatch := some s.now }
          let s := (List.range 8).foldl (fun s n => s.judge i n s.now) s
          match s.enc? i with
          | none => s
          | some y =>
            let f : Frame := { stamp := s.now, k := k % 2 ^ 32, stage := if y.undecided then 0 else 1, key := y.keyDue }
            let s := s.updEnc i fun z => { z with keyDue := false, waiting := if y.coreLost then none else some f }
            let s := match y.waiting with
              | some w => s.skip i w
              | none => s
            if y.coreLost then s.skip i f else s

/-- The layers a context still holds, decided as far as they can be: by content that has come in time, or by the end of
GRACE (R392). -/
def State.judgeFrame (s : State) (i : Nat) : State :=
  let layer (s : State) (n : Nat) : State :=
    match s.enc? i with
    | none => s
    | some x =>
      let l := x.layers.getD n {}
      match x.waiting with
      | none => s
      | some f =>
        let e := f.stamp + l.grace * 20000
        if !l.holding then s
        else match s.content x.part l e with
          | some c =>
            if s.readable x.part { l with buffer := c.2 } then
              s.updEnc i fun y => { y with layers := updAt y.layers n fun o =>
                { o.fresh c with published := o.published.filter fun p => e < p.1 } }
            else s.staleLayer x n l
          | none => if e ≤ s.now then s.staleLayer x n l else s
  let s := (List.range 8).foldl layer s
  match s.enc? i with
  | some x => if x.undecided then s else s.updEnc i fun y => { y with waiting := y.waiting.map fun w => { w with stage := max w.stage 1 } }
  | none => s

/-- LAYER_GRACE_EXPIRY: a held layer acts as REPEAT_LAST once its grace has ended. -/
def execLayerGraceExpiry (i : Nat) (s : State) : Host.Outcome State Fault Refusal :=
  run State.core s fun s => s.judgeFrame i

end Sys2Proof.Machine
end

