-- ==== Sys2Proof/Machine/Picture.lean ====
section
/-! DEFINITION. The compositor (R393, R394), media cores row by row (R387), encoded pictures in their slots (R395 to R400), decoded frames in their ring (R402 to R404), and a media core that fails. -/
namespace Sys2Proof.Machine
open Sys2Proof

/-! ### Blending (R393) -/

/-- A rational rounded to the nearest FP32. -/
def fp32Of (q : Rat) : Val :=
  if q = 0 then .zero false else toFp32 (.num (quoDy 200 ⟨q.num, 0⟩ ⟨q.den, 0⟩))

/-- A dyadic number as a rational. -/
def Dy.rat (d : Dy) : Rat := (d.m : Rat) * (2 : Rat) ^ d.e

/-- A value clamped to [0, 1]. A NaN counts as a free value (log entry 60). -/
def clamp01 (nan : Int) (v : Val) : Dy :=
  let lim (d : Dy) : Dy := if d.isNeg then ⟨0, 0⟩ else if Dy.one.le d then Dy.one else d
  match v with
  | .nan _ => lim ⟨nan, -16⟩
  | .inf n => if n then ⟨0, 0⟩ else Dy.one
  | .zero _ => ⟨0, 0⟩
  | .num d => lim d

def mul32 (a b : Dy) : Dy := (toFp32 (Val.ofDy (a.mul b))).dy
def add32 (a b : Dy) : Dy := (toFp32 (Val.ofDy (a.add b))).dy

/-- out = a × src + (1 − a) × out, each operation an FP32 one (log entry 59). -/
def blend (a src out : Dy) : Dy := add32 (mul32 a src) (mul32 (add32 Dy.one a.neg) out)

/-- One pixel of a decoded layer as R′G′B′, by the BT.709 inverse matrix (log entry 59): luma and chroma codes, from limited
range. -/
def rgbOf (ten : Bool) (y cb cr : Nat) : List Val :=
  let k : Rat := if ten then 4 else 1
  let Y : Rat := ((y : Rat) / k - 16) / 219
  let B : Rat := ((cb : Rat) / k - 128) / 224
  let R : Rat := ((cr : Rat) / k - 128) / 224
  let r := Y + R * (15748 / 10000)
  let b := Y + B * (18556 / 10000)
  let g := (Y - r * (2126 / 10000) - b * (722 / 10000)) / (7152 / 10000)
  [fp32Of r, fp32Of g, fp32Of b]

/-- A shown layer's R′G′B′ and alpha at a pixel of its own. Chroma of a decoded frame is that of the 2 × 2 block (log entry
59). -/
def State.layerPixel (s : State) (p : Nat) (l : Layer) (x y : Nat) : Option (List Val × Val) :=
  if l.source = 2 then
    match s.decOf p l.producer with
    | none => none
    | some d =>
      let w := s.vNat (l.buffer + 4) 2
      let h := s.vNat (l.buffer + 6) 2
      let pitch := d.maxW * 2
      let luma := l.buffer + 4096
      let chroma := luma + pitch * d.maxH
      if w ≤ x || h ≤ y then none
      else some (rgbOf (s.vNat (l.buffer + 8) 1 == 10) (s.vNat (luma + y * pitch + 2 * x) 2)
        (s.vNat (chroma + y / 2 * pitch + x / 2 * 4) 2) (s.vNat (chroma + y / 2 * pitch + x / 2 * 4 + 2) 2), .num Dy.one)
  else
    let t := if s.isLocal l.buffer then s.tensor l.buffer else tensorOf (BitVec.ofNat 512 (s.vNat l.buffer 64))
    let e (c : Nat) : Val := s.elem t (if t.layout = 0 then [c, x, y] else [c, x, y, 0, 0])
    some ([e 0, e 1, e 2], if t.layout = 0 && t.dim 0 = 3 then .num Dy.one else e 3)

/-- One pixel of the frame in R′G′B′. -/
def State.framePixel (s : State) (p : Nat) (ls : List Layer) (x y : Nat) : List Dy :=
  ls.foldl (fun out l =>
    if !l.shown || x < l.x || y < l.y || l.x + l.w ≤ x || l.y + l.h ≤ y then out
    else match s.layerPixel p l (x - l.x) (y - l.y) with
      | none => out
      | some (rgb, alpha) =>
        let nan := Config.nanPixel s.fresh
        let a := mul32 (fp32Of ((l.alpha : Rat) / 255)).dy (clamp01 nan alpha)
        (rgb.zip out).map fun c => blend a (clamp01 nan c.1) c.2) [⟨0, 0⟩, ⟨0, 0⟩, ⟨0, 0⟩]

/-- A code rounded, ties to even. -/
def roundEven (q : Rat) : Nat :=
  let f := q.floor
  let r := q - f
  (if r < 1 / 2 then f else if 1 / 2 < r then f + 1 else if f % 2 = 0 then f else f + 1).toNat

/-- Y′, Cb, Cr of an R′G′B′ pixel by the BT.709 matrix. -/
def ycc (c : List Dy) : Rat × Rat × Rat :=
  let r := (c.getD 0 ⟨0, 0⟩).rat
  let g := (c.getD 1 ⟨0, 0⟩).rat
  let b := (c.getD 2 ⟨0, 0⟩).rat
  let y := r * (2126 / 10000) + g * (7152 / 10000) + b * (722 / 10000)
  (y, (b - y) / (18556 / 10000), (r - y) / (15748 / 10000))

/-- The composed frame: luma rows, then rows of interleaved chroma, each the mean of its 2 × 2 positions; a sample is one
byte, or two at 10 bits (log entry 59). -/
def State.composed (s : State) (x : Enc) : List Byte :=
  let k : Rat := if x.ten then 4 else 1
  let put (v : Nat) : List Byte := leBytes (if x.ten then 2 else 1) v
  let at' (n : Nat) : Rat × Rat × Rat := ycc (s.framePixel x.part x.layers (n % x.width) (n / x.width))
  let luma := (List.range (x.width * x.height)).flatMap fun n => put (roundEven (k * (16 + 219 * (at' n).1)))
  let w := x.width / 2
  let chroma := (List.range (w * (x.height / 2))).flatMap fun n =>
    let c := [0, 1, x.width, x.width + 1].map fun o => (at' (n / w * 2 * x.width + n % w * 2 + o)).2
    put (roundEven (k * (128 + 224 * ((c.map (·.1)).sum / 4)))) ++ put (roundEven (k * (128 + 224 * ((c.map (·.2)).sum / 4))))
  luma ++ chroma

/-- Whether a partition is in a reset, in which no master of it reaches memory (R219). -/
def State.resetting (s : State) (p : Nat) : Bool := (s.part p).step != 0

/-- The context whose frame the compositor takes next: by latch stamp, then by index. -/
def State.nextCompose (s : State) : Option Enc :=
  (s.media.encs.filter fun x => x.waiting.any (·.stage == 1) && !s.resetting x.part).foldl (fun a x => match a with
    | none => some x
    | some y =>
      let t (z : Enc) : Nat := (z.waiting.map (·.stamp)).getD 0
      if before [t x, x.index] [t y, y.index] then some x else some y) none

/-- COMPOSE_FRAME: layers that are held are decided where they can be; the first frame that is due is composed into its
context's buffer. -/
def execComposeFrame (s : State) : Host.Outcome State Fault Refusal :=
  run State.core s fun s =>
    let s := s.media.encs.foldl (fun s x => s.judgeFrame x.index) s
    match s.nextCompose with
    | none => s
    | some x =>
      let s := (s.store x.buffer (s.composed x)).updEnc x.index fun y =>
        { y with waiting := y.waiting.map fun w => { w with stage := 2 } }
      { s with fresh := s.fresh + 1 }

/-! ### Rows (R387, R399) -/

/-- CTU rows of a picture, in units of 64 luma samples (log entry 19). -/
def ctuRows (h : Nat) : Nat := (h + 63) / 64

/-- Rows of each part of a picture (R399). -/
def Enc.partRows (x : Enc) : List Nat :=
  let n := x.cores.length
  let r := ctuRows x.height
  (List.range n).map fun i =>
    if x.split = 0 then r
    else if x.split = 1 then (i + 1) * r / n - i * r / n
    else (r + n - 1 - i) / n

/-- CTU columns of a picture (R396; log entry 19). -/
def Enc.ctuCols (x : Enc) : Nat := (x.width + 63) / 64

/-- CTU columns that the next picture intra-codes: all of a key picture, else the part of the sweep that it is (R396). -/
def Enc.refresh (x : Enc) (key : Bool) : Nat × Nat :=
  if key then (0, x.ctuCols)
  else if x.irPeriod = 0 then (0, 0)
  else (x.sweep * x.ctuCols / x.irPeriod, (x.sweep + 1) * x.ctuCols / x.irPeriod)

/-- Whether a region covers a CTU in any pixel of the picture. -/
def Roi.covers (r : Roi) (x : Enc) (c : Nat × Nat) : Bool :=
  r.on && decide (r.x < min (64 * c.1 + 64) x.width) && decide (64 * c.1 < r.x + r.w) &&
    decide (r.y < min (64 * c.2 + 64) x.height) && decide (64 * c.2 < r.y + r.h)

/-- The quantiser of a CTU: the picture's, with the offset of the highest-numbered region that covers it, in steps of 4 for AV1,
clamped (R398). -/
def Enc.ctuQp (x : Enc) (k : Nat) (c : Nat × Nat) : Int :=
  let off : Int := x.rois.foldl (fun a r => if r.covers x c then r.qp else a) 0
  let base := Config.pictureQp x.index k
  if x.av1 then max 1 (min 255 (base + 4 * off)) else max (if x.ten then -12 else 0) (min 51 (base + off))

/-- A frame as its encode begins: its intra refresh and its quantisers, CTU rows from the top. -/
def Enc.order (x : Enc) (f : Frame) : Frame :=
  { f with
    stage := 3, refresh := x.refresh f.key,
    qp := (List.range (x.ctuCols * ctuRows x.height)).map fun n => x.ctuQp f.k (n % x.ctuCols, n / x.ctuCols) }

/-- What the encoder is told of a picture (R395 to R399): its kind, the picture it may reference, its target and buffer in bits, its
parts, its refresh and its quantisers. -/
def Enc.told (x : Enc) (f : Frame) : List Int :=
  ([b2n f.key, if f.key then 0 else x.coded.elim 0 (· + 1), x.bitrate * 1000 / x.fps, 2 * (x.bitrate * 1000 / x.fps), b2n x.av1, b2n x.ten,
    x.split, x.cores.length, f.refresh.1, f.refresh.2].map fun (n : Nat) => (n : Int)) ++ f.qp

/-- The part of a context that a core serves. -/
def Enc.partOf (x : Enc) (core : Nat) : Option Nat := x.cores.findIdx? (· == core)

/-- Whether a context has a row for a core: of the picture under way, or of a composed frame whose encode may begin. -/
def Enc.ready (x : Enc) (core : Nat) : Bool :=
  match x.partOf core with
  | none => false
  | some i => if x.frame.isSome then 0 < x.rowsLeft.getD i 0 else x.waiting.any (·.stage == 2) && 0 < x.partRows.getD i 0

/-- Balance of a context's reservation on a core. -/
def Core.balance (c : Core) (id : Option Nat) : Int :=
  match id with
  | some k => ((c.balances.find? (·.1 == k)).map (·.2)).getD 0
  | none => 0

/-- The encoder whose row a core takes: charged ones first, by latch stamp, then by index. -/
def State.nextEnc (s : State) (core : Nat) : Option Enc :=
  let c := s.media.cores.getD core {}
  let key (x : Enc) : List Nat :=
    let id := (x.partOf core).bind fun i => x.resv[i]?
    [b2n (c.balance id ≤ 0), (((x.frame.or x.waiting).map (·.stamp)).getD 0), x.index]
  (s.media.encs.filter (·.ready core)).foldl (fun a x => match a with
    | none => some x
    | some y => if before (key x) (key y) then some x else some y) none

/-- The decoder whose row a core takes: charged ones first, by the arrival of their slot data, then by index. -/
def State.nextDec (s : State) (core : Nat) : Option Dec :=
  let c := s.media.cores.getD core {}
  let key (x : Dec) : List Nat :=
    [b2n (c.balance x.resv.head? ≤ 0), ((x.slots.head?).map (·.2.2)).getD 0, x.index]
  (s.media.decs.filter fun x => x.core == core && !x.stopped && !x.slots.isEmpty).foldl (fun a x => match a with
    | none => some x
    | some y => if before (key x) (key y) then some x else some y) none

def State.updCore (s : State) (i : Nat) (f : Core → Core) : State :=
  { s with media := { s.media with cores := updAt s.media.cores i f } }

/-- MEDIA_ROW_START: a free core takes the next ready row. -/
def execMediaRowStart (core : Nat) (s : State) : Host.Outcome State Fault Refusal :=
  run State.core s fun s =>
    let s := s.windowDue
    if 16 ≤ core || (s.media.cores.getD core {}).row.isSome || !bit s.boot.mediaOk.toNat core then s
    else if core < 12 then
      match s.nextEnc core with
      | none => s
      | some x =>
        let s := s.updEnc x.index fun y =>
          let y := if y.frame.isSome then y else
            { y with frame := y.waiting.map y.order, waiting := none, rowsLeft := y.partRows }
          { y with rowsLeft := match y.partOf core with
            | some i => updAt y.rowsLeft i (· - 1)
            | none => y.rowsLeft }
        s.updCore core fun c => { c with row := some x.index, void := false }
    else
      match s.nextDec core with
      | none => s
      | some x => s.updCore core fun c => { c with row := some (2048 + x.index), void := false }

/-- Core time of a row's end, in tenths of a nanosecond. -/
def rowTime : RowEnd → Nat
  | .row t _ _ => t
  | .picture t => t
  | .frame t _ _ _ _ _ _ _ _ _ => t
  | .damage t _ _ _ _ => t

/-- A row's time debited from the reservation of its context. -/
def Core.debit (c : Core) (id : Option Nat) (time : Nat) : Core :=
  match id with
  | none => { c with row := none, void := false }
  | some k => { c with row := none, void := false, balances := (k, c.balance id - time) :: c.balances.filter (·.1 != k) }

/-! ### Encoded pictures (R400) -/

/-- The window bound to a media context. -/
def State.mediaWindow (s : State) (p h : Nat) : Option Nat :=
  (List.range 64).find? fun w => (s.window (p + 1) w).mapped && (s.window (p + 1) w).bind == 1 && (s.window (p + 1) w).target == h

/-- DEVICE-owned slots in a row from a window's head. -/
def Window.run (x : Window) : Nat := ((List.range x.count).takeWhile fun i => (x.slot ((x.head + i) % x.count)).owner == 2).length

/-- One slot of a picture: the header of Table 20-3 and its data. -/
def encSlot (x : Enc) (f : Frame) (len off n : Nat) (first last skipped : Bool) : List Byte :=
  leBytes 4 n ++ leBytes 4 (b2n f.key + 2 * b2n first + 4 * b2n last + 8 * b2n skipped) ++ leBytes 8 f.stamp ++ leBytes 4 f.k ++
    leBytes 12 0 ++ (List.range (min n len)).map fun i => Config.encodedByte f.stamp x.index (x.told f) (off + i)

/-- The reconstructed picture written into the reference buffer that the last one does not hold (R388, R395); its samples are open
(log entry 9). -/
def State.keepReference (s : State) (x : Enc) (f : Frame) : State :=
  let n := frameBytes x.width x.height x.ten
  (s.store (x.buffer + (1 + x.refAt) * n) ((List.range n).map (Config.referenceByte f.stamp x.index (x.told f)))).updEnc x.index fun y =>
    { y with refAt := 1 - x.refAt }

/-- A picture's bitstream written into slots from the head on and handed to HOST, and its reconstruction kept as reference, or the
frame skipped where too few slots are owned by DEVICE. What the bitstream holds is open (log entry 9). -/
def State.emitPicture (s : State) (x : Enc) (f : Frame) : State :=
  let fn := x.part + 1
  match s.mediaWindow x.part (hMedia x.index) with
  | none => s.skip x.index f
  | some w =>
    let win := s.window fn w
    let len := Config.encodedLength x.index f.k (x.told f)
    let cap := win.slotSize - 32
    let n := max 1 (ceilDiv len cap)
    if win.run < n || s.resetting x.part then s.skip x.index f
    else
      let s := (List.range n).foldl (fun s i =>
        let k := (win.head + i) % win.count
        let m := min cap (len - i * cap)
        let s := s.store (win.slotAddr k) (encSlot x f len (i * cap) m (i == 0) (i + 1 == n) x.skipBefore)
        s.handBack fn w k) s
      let s := s.updWindow fn w fun y => { y with head := (y.head + n) % y.count }
      (s.keepReference x f).updEnc x.index fun y => { y with
        skipRun := false, skipBefore := false, coded := some f.k,
        sweep := if f.key || y.irPeriod = 0 then 0 else (y.sweep + 1) % y.irPeriod }

/-- The picture under way has ended on every core: it is handed off, and a close that waits goes on. -/
def State.pictureEnds (s : State) (i : Nat) : State :=
  match s.enc? i with
  | none => s
  | some x =>
    match x.frame with
    | none => s
    | some f =>
      if x.rowsLeft.any (0 < ·) || s.media.cores.any (·.row == some i) then s
      else
        let s := s.updEnc i fun y => { y with frame := none, rowsLeft := [] }
        let s := s.emitPicture x f
        match x.closing with
        | some r => match s.enc? i with
          | some y => (s.dropEnc y).complete r ST.ok
          | none => s
        | none => s

/-! ### Decoded frames (R402 to R404) -/

/-- LENGTH of a slot of input, within the slot. -/
def State.inputLen (s : State) (d : Dec) (k : Nat × Nat × Nat) : Nat :=
  let w := s.window (d.part + 1) k.1
  min (s.rdNat (w.slotAddr k.2.1) 4) (w.slotSize - 16)

/-- Buffers of a decoder that a layer now shows (R403). -/
def State.shownBuffers (s : State) (h : Nat) : List Nat :=
  s.media.encs.flatMap fun x => (x.layers.filter fun l => l.on && l.source == 2 && l.producer == h && l.current.isSome).map (·.buffer)

/-- The ring position of the next output frame: past a buffer that is shown. -/
def State.outPos (s : State) (d : Dec) : Nat :=
  let size := outBytes d.maxW d.maxH
  let at' (n : Nat) : Nat := d.outAddr + n % d.outFrames * size
  ((List.range d.outFrames).find? fun k => !(s.shownBuffers (hMedia (d.index + 2048))).contains (at' (d.pos + k))).elim d.pos (d.pos + ·)

/-- Samples of a plane, each in 16 bits, at a pitch. -/
def State.putPlane (s : State) (a pitch w : Nat) (l : List (BitVec 16)) : State :=
  (List.range (ceilDiv l.length w)).foldl (fun s r =>
    s.store (a + r * pitch) (((l.drop (r * w)).take w).flatMap fun v => leBytes 2 v.toNat)) s

/-- A frame written into its buffer: the planes, then the header. -/
def State.putFrame (s : State) (d : Dec) (f : HeldFrame) : State :=
  let n := s.outPos d
  let v := d.outAddr + n % d.outFrames * outBytes d.maxW d.maxH
  let a := vLocal v
  let pitch := d.maxW * 2
  let s := s.putPlane (a + 4096) pitch (max 1 f.w) (f.luma.take (f.w * f.h))
  let s := s.putPlane (a + 4096 + pitch * d.maxH) pitch (max 1 ((f.w + 1) / 2 * 2)) (f.chroma.take ((f.w + 1) / 2 * 2 * ((f.h + 1) / 2)))
  let s := s.store a (leBytes 4 d.outputs ++ leBytes 2 f.w ++ leBytes 2 f.h ++ leBytes 1 (if f.ten then 10 else 8) ++ leBytes 7 0 ++
    leBytes 8 f.pts ++ leBytes 8 f.ended)
  s.updDec d.index fun y => { y with
    pos := n + 1, outputs := (y.outputs + 1) % 2 ^ 32, latest := some (s.now, v) }

/-- The held frame that comes first in output order, the earlier decoded among equals. -/
def Dec.nextOut (d : Dec) : Option HeldFrame :=
  d.held.foldl (fun a f => match a with
    | none => some f
    | some g => if f.order < g.order then some f else a) none

/-- `n` held frames, or all where fewer are held, written into the ring in output order; none while the partition is in reset (R219). -/
def State.output (s : State) (i : Nat) : Nat → State
  | 0 => s
  | n + 1 =>
    match s.dec? i with
    | none => s
    | some d => match d.nextOut with
      | none => s
      | some f =>
        if s.resetting d.part then s
        else State.output ((s.updDec i fun y => { y with held := y.held.erase f }).putFrame d f) i n

/-- Every held frame output (END of R402, damage of R404). -/
def State.outputAll (s : State) (i : Nat) : State := s.output i ((s.dec? i).map (·.held.length) |>.getD 0)

/-- END of a slot of input (R402): bit 0 of byte 4 of its header. -/
def State.inputEnd (s : State) (d : Dec) (k : Nat × Nat × Nat) : Bool :=
  bit (s.rdNat ((s.window (d.part + 1) k.1).slotAddr k.2.1 + 4) 1) 0

/-- The PTS of the slot in which the next byte of input lies: the first with data left. -/
def State.inputPts (s : State) (d : Dec) : Nat :=
  match d.slots with
  | [] => 0
  | k :: r =>
    let k := if d.headUsed < s.inputLen d k then k else (r.find? fun k => 0 < s.inputLen d k).getD k
    s.rdNat ((s.window (d.part + 1) k.1).slotAddr k.2.1 + 8) 8

/-- `n` bytes of input consumed; a slot whose data is all consumed goes back to HOST, and with its END every frame still held is
output (R402). -/
def State.useInput (s : State) (i n : Nat) : Nat → State
  | 0 => s
  | fuel + 1 =>
    match s.dec? i with
    | none => s
    | some d => match d.slots with
      | [] => s
      | k :: r =>
        let left := s.inputLen d k - d.headUsed
        if left ≤ n then
          let last := s.inputEnd d k
          let s := (s.handBack (d.part + 1) k.1 k.2.1).updDec i fun y =>
            { y with slots := r, headUsed := 0, bytes := y.bytes + left }
          State.useInput (if last then s.outputAll i else s) i (n - left) fuel
        else s.updDec i fun y => { y with headUsed := y.headUsed + n, bytes := y.bytes + n }

/-- A row that ends no frame: what it has consumed, and where the frame under way began. -/
def State.decRow (s : State) (d : Dec) (used : Nat) (part : Bool) : State :=
  if s.resetting d.part then s
  else
    let s := if part then s.updDec d.index fun y => { y with began := some (d.began.getD (s.inputPts d)) } else s
    s.useInput d.index used (d.slots.length + 1)

/-- Damage: the frames decoded before it are output, the context is STOPPED and tells where (R404). -/
def State.decDamage (s : State) (d : Dec) (cause off x y : Nat) : State :=
  ((s.outputAll d.index).updDec d.index fun z => { z with stopped := true }).emit [d.part + 1] EV.decError 2 (hMedia (d.index + 2048))
    (pay [(0, d.decoded % 2 ^ 32), (4, min off (2 ^ 48 - 1)), (10, cause), (12, x % 65536), (14, y % 65536)]) false (some d.part)

/-- A decoded frame is held; its input is consumed, and `out` frames are output. Before the first random-access picture it is
discarded; beyond the context's largest picture it is damage of cause UNSUPPORTED. -/
def State.decFrame (s : State) (d : Dec) (w h : Nat) (ten rap : Bool) (used order out : Nat) (luma chroma : List (BitVec 16)) : State :=
  if s.resetting d.part then s
  else if d.maxW < w || d.maxH < h then s.decDamage d 2 d.bytes 0 0
  else
    let f : HeldFrame := { order := order, w := w, h := h, ten := ten, pts := d.began.getD (s.inputPts d), ended := s.now,
                           luma := luma, chroma := chroma }
    let s := s.updDec d.index fun y =>
      if y.seenRap || rap then { y with began := none, seenRap := true, decoded := y.decoded + 1, held := y.held ++ [f] }
      else { y with began := none }
    (s.output d.index (if d.seenRap || rap then out else 0)).useInput d.index used (d.slots.length + 1)

/-- MEDIA_ROW_END: the row's time is debited; a picture whose rows have all ended is handed off; a decoder consumes input,
holds or outputs frames, or stops at damage. -/
def execMediaRowEnd (core : Nat) (r : RowEnd) (s : State) : Host.Outcome State Fault Refusal :=
  run State.core s fun s =>
    match (s.media.cores.getD core {}).row with
    | none => s
    | some n =>
      if (s.media.cores.getD core {}).void then
        s.updCore core fun c => c.debit (if n < 2048 then none else (s.dec? (n - 2048)).bind fun d => d.resv.head?) (rowTime r)
      else if n < 2048 then
        match s.enc? n with
        | none => s.updCore core fun c => { c with row := none }
        | some x =>
          let id := (x.partOf core).bind fun i => x.resv[i]?
          (s.updCore core fun c => c.debit id (rowTime r)).pictureEnds n
      else
        match s.dec? (n - 2048) with
        | none => s.updCore core fun c => { c with row := none }
        | some d =>
          let s := s.updCore core fun c => c.debit d.resv.head? (rowTime r)
          match r with
          | .row _ used part => s.decRow d used part
          | .frame _ w h ten rap used order out luma chroma => s.decFrame d w h ten rap used order out luma chroma
          | .damage _ cause off x y => s.decDamage d cause off x y
          | .picture _ => s

/-! ### A media core that fails (R442, Hard corners of chapter 20) -/

/-- EV_MEDIA_CORE_LOST, with the core in byte 0 of PAYLOAD (log entry 18). -/
def State.coreLostEvent (s : State) (p h core : Nat) : State :=
  s.emit [p + 1] EV.mediaCoreLost 1 h (pay [(0, core)]) false (some p)

/-- A context moves the part it had on a core to another core that qualifies; the frame in progress is skipped. -/
def State.moveEnc (s : State) (core : Nat) (x : Enc) : State :=
  match x.partOf core with
  | none => s
  | some i =>
    let d := ((s.ledger.resvs.find? fun r => x.resv[i]? == some r.id).map (·.amount)).getD 0
    let s := s.releaseResvs fun r => x.resv[i]? == some r.id
    let s := { s with media := { s.media with cores := s.media.cores.map fun (c : Core) =>
      (if c.row = some x.index then { c with row := none } else c) } }
    let s := s.updEnc x.index fun y => { y with frame := none, rowsLeft := [] }
    let s := match s.takeCores x.part d 1 (encCores.filter fun c => !x.cores.contains c) with
      | some (c :: _) =>
        let (id, s) := s.reserve 2 c 0 d x.part 0
        s.updEnc x.index fun y => { y with cores := updAt y.cores i fun _ => c, resv := updAt y.resv i fun _ => id }
      | _ =>
        let s := if x.coreLost then s else s.coreLostEvent x.part (hMedia x.index) core
        s.updEnc x.index fun y => { y with coreLost := true }
    let s := match x.frame with
      | some f => s.skip x.index f
      | none => s
    match x.closing, s.enc? x.index with
    | some r, some y => (s.dropEnc y).complete r ST.ok
    | _, _ => s

/-- A decoder on a lost core moves likewise; without a core it is STOPPED (log entry 65). -/
def State.moveDec (s : State) (core : Nat) (x : Dec) : State :=
  if x.core != core then s
  else
    let d := ((s.ledger.resvs.find? fun r => x.resv.contains r.id).map (·.amount)).getD 0
    let s := (s.releaseResvs fun r => x.resv.contains r.id).updCore core fun c => { c with row := none }
    match s.takeCores x.part d 1 decCores with
    | some (c :: _) =>
      let (id, s) := s.reserve 2 c 0 d x.part 0
      s.updDec x.index fun y => { y with core := c, resv := [id] }
    | _ => (s.coreLostEvent x.part (hMedia (x.index + 2048)) core).updDec x.index fun y => { y with stopped := true, resv := [] }

/-- MEDIA_CORE_CHECK_ERROR: the picture is encoded or decoded again; an error that recurs takes the core out of service. -/
def execMediaCoreCheckError (core : Nat) (lasting : Bool) (s : State) : Host.Outcome State Fault Refusal :=
  run State.core s fun s =>
    if 16 ≤ core || !bit s.boot.mediaOk.toNat core then s
    else if !lasting then
      let s := s.transient 0x0B core
      match (s.media.cores.getD core {}).row with
      | some n =>
        if n < 2048 then
          let s := { s with media := { s.media with cores := s.media.cores.map fun (c : Core) =>
            (if c.row = some n then { c with row := none } else c) } }
          s.updEnc n fun y => { y with rowsLeft := if y.frame.isSome then y.partRows else y.rowsLeft }
        else s.updCore core fun c => { c with row := none }
      | none => s
    else
      let s := (s.lasting 0x0B 1 core).refreshD
      let s := s.media.encs.foldl (fun s x => s.moveEnc core x) s
      (s.media.decs.foldl (fun s x => s.moveDec core x) s).advance

end Sys2Proof.Machine
end

