-- ==== Sys2Proof/Machine/Security.lean ====
section
/-! DEFINITION. Solram's services: attestation (R418, R419), debug (R420 to R422), the lifecycle (R410 to R414), entropy failures (R408), JTAG (R420). -/
namespace Sys2Proof.Machine
open Sys2Proof

/-! ### Attestation -/

/-- A partition entry's 32 bytes (Table 5-10). -/
def PartCfg.bytes (c : PartCfg) : List Byte :=
  padTo 32 (leBytes 4 c.hpMask ++
    leBytes 1 (b2n c.confidential + 2 * b2n c.retainKeys + 4 * b2n c.scrubOnReset + 8 * b2n c.acctOverride + 16 * b2n c.acctCount) ++
    leBytes 1 c.mediaShare ++ leBytes 2 0 ++ c.quota.flatMap (leBytes 1))

/-- The identity and the alias certificate, 3,072 bytes together at most (log entry 11). The alias certificate is that of the
running image. -/
def State.aliasNo (s : State) : Nat := leNat s.sec.measuredFw + 1
def State.certs (s : State) : List Byte := (Config.certificates 0 ++ Config.certificates s.aliasNo).take 3072

/-- The report of Table 21-7 without its signature. -/
def State.reportBody (s : State) (m : Nat) (nonce : List Byte) : List Byte :=
  let x := s.part (m - 1)
  let cs := s.certs
  leBytes 4 0x54415A4B ++ leBytes 2 1 ++ leBytes 1 s.sec.lifecycle ++ leBytes 1 (s.sec.level + 4 * b2n s.approved) ++
  leBytes 8 s.sec.serial.toNat ++ nonce ++ leBytes 8 s.now ++ leBytes 8 s.boot.caps.toNat ++ leBytes 4 s.fw.version ++
  leBytes 2 s.arbCounter ++ leBytes 1 (if s.boot.defaultUsed then 0xFF else s.boot.active) ++
  leBytes 1 (if m = 0 then 0xFF else m - 1) ++ padTo 48 s.sec.measuredSolram ++ padTo 48 s.sec.measuredFw ++ s.profileDigest ++
  (if m = 0 then List.replicate 32 0 else ({ x.cfg with acctOverride := true, acctCount := x.acctCount } : PartCfg).bytes) ++
  leBytes 2 0 ++ leBytes 1 (if m = 0 then 0 else s.tdiCode m) ++ leBytes 5 0 ++ leBytes 2 cs.length ++ leBytes 6 0 ++ cs

/-- The report with its signature by the alias key. -/
def State.report (s : State) (m : Nat) (nonce : List Byte) : List Byte :=
  let l := s.reportBody m nonce
  l ++ leBytes 96 (Config.ecdsaSign s.aliasNo l).toNat

/-- A slot below 4 KiB, or a RETIRED device (R414). -/
def chkSecAttest (m : Nat) (s : State) (e : Block) (t : Taken) : Option (Nat × Nat) :=
  if (s.namedSize m (eParam e 32 0 6)).any (· < 4096) then some (ST.invalidArg, 50)
  else if t.slot.isNone then some (ST.fordNotOwned, 0)
  else if s.sec.lifecycle = 4 then some (ST.secDenied, 0)
  else none

def effSecAttest (s : State) (r : Req) (t : Taken) : State :=
  let l := s.report r.m (leBytes 32 (eParam t.entry 0 0 256))
  (s.slotWrite r t l).complete r ST.ok l.length

/-- SEC_ATTEST. -/
def execSecAttest (m : Nat) (c : Cmd) (s : State) : Host.Outcome State Fault Refusal :=
  run State.core s fun s => lolin 0x0C01 m c s (chkSecAttest m) effSecAttest

/-- A measurement block of R418. -/
def State.measurement (s : State) (n : Nat) : List Byte :=
  match n with
  | 1 => leBytes 48 Config.bootRom.toNat
  | 2 => padTo 48 s.sec.measuredSolram
  | 3 => padTo 48 s.sec.measuredFw
  | 4 => leBytes 4 s.fw.version ++ leBytes 2 s.arbCounter
  | 5 => leBytes 1 s.sec.lifecycle ++ leBytes 1 s.sec.level ++ leBytes 1 (b2n s.approved)
  | 6 => s.profileDigest ++ leBytes 1 (if s.boot.defaultUsed then 0xFF else s.boot.active)
  | 7 => leBytes 8 s.boot.caps.toNat
  | _ => []

/-- What the TDISP interface report of VF `n` lists (R418): the ranges of its BARs, its partition's CONFIDENTIAL and HP_MASK. -/
def State.tdiReport (s : State) (n : Nat) : List Byte :=
  let bar (i bytes : Nat) : List Byte := leBytes 8 (s.hif.vfBars.getD i 0 + (n - 1) * bytes) ++ leBytes 8 bytes
  bar 0 ((s.fn n).barBytes true 0) ++ bar 1 ((s.fn n).barBytes true 2) ++ leBytes 1 (b2n (s.part (n - 1)).cfg.confidential) ++
    leBytes 4 (s.part (n - 1)).cfg.hpMask

/-- SPDM_REQUEST: what Solram answers is in `readData` (log entry 69): the versions, the capabilities of R418 in its
order, the certificate chain of slot 0, a measurement block, by a vendor-defined request the TDISP interface report; of the other requests a free value. -/
def execSpdmRequest (code slot : Nat) (s : State) : Host.Outcome State Fault Refusal :=
  run State.solram s fun s =>
    match code with
    | 0x84 => { s with readData := 0x1312 }
    | 0xE1 => { s with readData := 0x3F }
    | 0x82 => { s with readData := if slot = 0 then leNat (Config.certificates 1 ++ Config.certificates 2 ++ s.certs) else 0 }
    | 0xE0 => { s with readData := leNat (s.measurement slot) }
    | 0xFE => { s with readData := leNat (s.tdiReport slot) }
    | _ => let (v, s) := s.free; { s with readData := v }

/-! ### The end of sequences that reset partitions (R413, R422) -/

/-- Partitions that no sequence is destroying, of those that `sel` names, destroyed. -/
def State.destroyAll (s : State) (sel : Part → Bool) : State :=
  (List.range 32).foldl (fun s p =>
    let x := s.part p
    if x.exist && sel x && !(x.state == .destroying) && !x.destroyAfter then s.destroyPart p [] else s) s

/-- Steps 2 to 5 of a lifecycle transition once no partition is left. -/
def State.lifecycleEnds (s : State) (r : Req) (to' : Nat) (pub dbg : List Byte) : State :=
  let s := s.departValley
  let s := { s with
    fns := s.fns.map fun (x : Fn) => { x with ideKeys := [], ideUp := false }
    ports := s.ports.map fun (x : Port) => { x with keySession := 0 }
    sec := { s.sec with
    keys := [], ownerPub := if pub.isEmpty then s.sec.ownerPub else pub, ownerDebug := if dbg.isEmpty then s.sec.ownerDebug else dbg,
    groups := updAt s.sec.groups (to' - 1) fun _ => BitVec.allOnes 16, lifecycleReq := none, lifecycleSet := true } }
  s.complete r ST.ok

/-- What waits for partitions to go or to be reset goes on: a lifecycle transition, then a grant of INVASIVE. -/
def State.secResume (s : State) : State :=
  let s := match s.sec.lifecycleReq with
    | none => s
    | some (r, to', pub, dbg) =>
      let s := s.destroyAll fun _ => true
      if s.parts.any (·.exist) then s else s.lifecycleEnds r to' pub dbg
  if s.sec.unlock.isEmpty then s
  else
    let s := s.destroyAll fun x => x.cfg.confidential
    if s.parts.any fun x => (x.exist && x.cfg.confidential) || x.step != 0 then s
    else
      let l := s.sec.unlock
      State.completeAll (State.setLevel { s with sec := { s.sec with unlock := [] } } 2) l ST.ok 2

/-- PART_READY: steps 7 and 8 of R216: the mailbox is cleared and the partition reports READY, or is gone. -/
def execPartReady (p : Nat) (s : State) : Host.Outcome State Fault Refusal :=
  run State.core s fun s => if s.atStep p 7 then ((s.clearMailbox p).partReady p).secResume.advance else s

/-! ### Debug -/

/-- The 64 bytes of a challenge (R421). -/
def State.challengeBytes (s : State) (level : Nat) : List Byte :=
  leBytes 4 0x47445A4B ++ leBytes 2 1 ++ leBytes 1 level ++ leBytes 1 s.sec.lifecycle ++ leBytes 8 s.sec.serial.toNat ++
  leBytes 32 (Config.drbg s.sec.drbgCount).toNat ++ leBytes 8 s.now ++ leBytes 4 s.fw.version ++ leBytes 4 0

def chkSecDebugChallenge (s : State) (_ : Block) (t : Taken) : Option (Nat × Nat) :=
  if t.slot.isNone then some (ST.fordNotOwned, 0) else if s.sec.lifecycle = 4 then some (ST.secDenied, 0) else none

def effSecDebugChallenge (s : State) (r : Req) (t : Taken) : State :=
  let l := s.challengeBytes (eParam t.entry 0 0 2)
  let s := { s with sec := { s.sec with challenge := some (l, s.now), drbgCount := s.sec.drbgCount + 1 } }
  (s.slotWrite r t l).complete r ST.ok 64

/-- SEC_DEBUG_CHALLENGE. -/
def execSecDebugChallenge (m : Nat) (c : Cmd) (s : State) : Host.Outcome State Fault Refusal :=
  run State.core s fun s => lolin 0x0C02 m c s chkSecDebugChallenge effSecDebugChallenge

/-- Whether a public key is one that the lifecycle state permits (Table 21-9): the vendor debug key, or the one that
hashes to the OTP owner debug key hash. -/
def State.debugKeyOk (s : State) (pub : List Byte) : Bool :=
  let l := s.sec.lifecycle
  ((l == 0 || l == 1 || l == 3) && pub == Config.vendorKey 2) ||
  ((l == 1 || l == 2) && !s.sec.ownerDebug.isEmpty && leBytes 48 (Config.sha384 pub).toNat == s.sec.ownerDebug)

/-- The level that a response grants, if any: the challenge present, not lapsed and matched, the key permitted, the
signature good (R421). -/
def State.debugGrant (s : State) (rd : Reader) : Option Nat :=
  match s.sec.challenge with
  | none => none
  | some (l, t) =>
    if s.now < t + 60000000000 && chunk rd 0 64 == l && s.debugKeyOk (chunk rd 64 96) &&
        Config.ecdsaVerify (chunk rd 64 96) (chunk rd 0 160) (chunk rd 160 96)
    then some (l.getD 6 0).toNat else none

/-- A grant of INVASIVE begins (R422). -/
def State.invasive (s : State) (r : Req) : State :=
  let s := s.wait r
  let s := { s with sec := { s.sec with unlock := s.sec.unlock ++ [r] } }
  let s := (List.range 32).foldl (fun s p =>
    if s.tdiCode (p + 1) = 0 then s else s.updFn (p + 1) fun x => { x with tdi := 3 }) s
  let s := s.destroyAll fun x => x.cfg.confidential
  let s := (List.range 32).foldl (fun s p =>
    if s.sec.lifecycle == 2 && (s.part p).exist && !(s.part p).cfg.confidential then s.partReset p else s) s
  s.secResume

/-- Either outcome spends the challenge. -/
def effSecDebugUnlock (s : State) (r : Req) (t : Taken) : State :=
  let g := s.debugGrant (s.slotRead r t)
  let s := { s with sec := { s.sec with challenge := none } }
  match g with
  | some 2 => s.invasive r
  | some l => (s.setLevel l).complete r ST.ok l
  | none => s.complete r ST.secDenied

/-- SEC_DEBUG_UNLOCK. -/
def execSecDebugUnlock (m : Nat) (c : Cmd) (s : State) : Host.Outcome State Fault Refusal :=
  run State.core s fun s => lolin 0x0C03 m c s slotCheck effSecDebugUnlock

def effSecDebugLock (s : State) (r : Req) (_ : Taken) : State := (s.setLevel 0).complete r ST.ok

/-- SEC_DEBUG_LOCK: the level is NONE at once. -/
def execSecDebugLock (m : Nat) (c : Cmd) (s : State) : Host.Outcome State Fault Refusal :=
  run State.core s fun s => lolin 0x0C04 m c s noCheck effSecDebugLock

/-- DEBUG_CHALLENGE_LAPSE, 60 s after the issue stamp. -/
def execDebugChallengeLapse (s : State) : Host.Outcome State Fault Refusal :=
  run State.core s fun s =>
    if s.sec.challenge.any (fun c => c.2 + 60000000000 ≤ s.now) then { s with sec := { s.sec with challenge := none } } else s

/-! ### The lifecycle -/

/-- The signatures a transition asks for (Table 21-4): vendor, owner; `none` where it is no row. -/
def Sec.signers (x : Sec) (a b : Nat) : Option (Bool × Bool) :=
  match a, b with
  | 0, 1 => some (true, false)
  | 1, 2 => some (true, true)
  | 1, 3 => some (true, false)
  | 2, 3 => some (true, true)
  | 4, _ => none
  | _, 4 => some (x.ownerPub.isEmpty, !x.ownerPub.isEmpty)
  | _, _ => none

/-- Lifecycle groups entered. -/
def Sec.entered (x : Sec) : Nat := (x.groups.filter (· != 0)).length

/-- An owner field given, or none where its bytes are zero. -/
def ownerField (rd : Reader) (o n : Nat) : List Byte := if zeros rd o n then [] else chunk rd o n

/-- A given owner field that matches the OTP or finds it empty. -/
def ownerFits (otp given : List Byte) : Bool := given.isEmpty || otp.isEmpty || otp == given

/-- The checks of R412 in order. -/
def State.authorised (s : State) (rd : Reader) (to' : Nat) : Bool :=
  let pub := ownerField rd 32 96
  let dbg := ownerField rd 128 48
  let body := chunk rd 0 192
  let key := if s.sec.ownerPub.isEmpty then pub else s.sec.ownerPub
  field rd 0 4 == 0x4C435A4B && field rd 4 2 == 1 && field rd 8 8 == s.sec.serial.toNat && field rd 16 4 == s.sec.entered &&
  field rd 6 1 == s.sec.lifecycle && field rd 7 1 == to' &&
  (match s.sec.signers s.sec.lifecycle to' with
    | none => false
    | some (v, o) =>
      (!v || Config.ecdsaVerify (Config.vendorKey 1) body (chunk rd 192 96)) &&
      (!o || Config.ecdsaVerify key body (chunk rd 288 96))) &&
  (!(s.sec.lifecycle == 1 && to' == 2) || ((!s.sec.ownerPub.isEmpty || !pub.isEmpty) && (!s.sec.ownerDebug.isEmpty || !dbg.isEmpty))) &&
  ownerFits s.sec.ownerPub pub && ownerFits s.sec.ownerDebug dbg

/-- An authorisation is good for one transition: a second one while the first is carried out is refused (log entry 70). -/
def chkSecLifecycleSet (m : Nat) (s : State) (e : Block) (t : Taken) : Option (Nat × Nat) :=
  if t.slot.isNone then some (ST.fordNotOwned, 0)
  else if s.sec.lifecycleReq.isSome || !s.authorised (s.slotRead ⟨m, eId e⟩ t) (eParam e 0 0 3) then some (ST.secDenied, 0)
  else none

def effSecLifecycleSet (s : State) (r : Req) (t : Taken) : State :=
  let rd := s.slotRead r t
  let x := (r, eParam t.entry 0 0 3, ownerField rd 32 96, ownerField rd 128 48)
  let s := s.wait r
  State.secResume { s with sec := { s.sec with lifecycleReq := some x } }

/-- SEC_LIFECYCLE_SET. -/
def execSecLifecycleSet (m : Nat) (c : Cmd) (s : State) : Host.Outcome State Fault Refusal :=
  run State.core s fun s => lolin 0x0C05 m c s (chkSecLifecycleSet m) effSecLifecycleSet

/-! ### Entropy and JTAG -/

/-- ENTROPY_TEST_FAIL, recurring: ERROR, and every key but the root secret zeroised (R408). -/
def execEntropyTestFail (s : State) : Host.Outcome State Fault Refusal :=
  run State.core s fun s => if s.sec.error then s else s.solramError.emit allRings EV.solramError 1

/-- Whether an instruction is open at the level: all at INVASIVE, else IDCODE, BYPASS and SAMPLE/PRELOAD; in STBY the first
two (Table 21-8, R423). -/
def State.jtagOpen (s : State) : JtagOp → Bool
  | .idcode | .bypass => true
  | .sample => s.power.chip != .stby
  | .extest | .scan => s.power.chip != .stby && s.sec.level == 2

/-- JTAG_INSTRUCTION: an open one becomes the instruction, any other is taken as BYPASS; `readData` is what the data
register captures, the scanned cells being free values (log entry 71). -/
def execJtagInstruction (op : JtagOp) (s : State) : Host.Outcome State Fault Refusal :=
  run State.aon s fun s =>
    let op := if s.jtagOpen op then op else .bypass
    let s := { s with dbg := { s.dbg with jtag := op } }
    match op with
    | .idcode => { s with readData := Config.idcode.toNat }
    | .bypass => { s with readData := 0 }
    | _ => let (v, s) := s.free; { s with readData := v }

end Sys2Proof.Machine
end

