-- ==== Sys2Proof/Machine/Errors.lean ====
section
/-! DEFINITION. On-die errors with their retry and isolation (R442, Table 23-1): SRAM arrays, Saddle links, engines. -/
namespace Sys2Proof.Machine
open Sys2Proof

/-- The descriptor that holds a half-plain faults, if one does, and dispatch goes on. -/
def State.faultAt (s : State) (h cause : Nat) : State :=
  match s.sched.runs.find? fun r => r.hps.contains h with
  | some r => (s.faultJob r.s cause r.d).advance
  | none => s

/-- A PART reset that the device performs of itself: a locked TDI moves to ERROR first (R123). -/
def State.selfReset (s : State) (p : Nat) : State := (s.tdiError (p + 1)).partReset p

/-- An uncorrectable error in an array that holds mailbox m's state: a PART reset, or a WARM for the admin mailbox. -/
def State.mailboxLost (s : State) (m : Nat) : State := if m = 0 then s.warmReset else s.selfReset (m - 1)

/-- What an uncorrectable lasting error takes with it: the reader of a store, a line buffer or a collective buffer
faults; the CP restarts; a mailbox is reset, and the dedup table, which no partition owns, with a WARM (log entry 66). -/
def State.sramLost (s : State) (typ loc : Nat) : State :=
  match typ with
  | 0x0C =>
    match Config.sramArray loc with
    | 0 => if s.cpUp then s.cpr else s
    | 34 => s.warmReset
    | n => if n ≤ 33 then s.mailboxLost (n - 1) else s
  | 0x05 =>
    match s.sched.runs.find? fun r => r.op == oColl with
    | some r => (s.faultJob r.s 0x44 r.d).advance
    | none => s
  | _ => s.faultAt (bits loc 0 5) 0x44

/-- SRAM_ECC_ERROR at a store row or column, a line-buffer row, a collective-buffer row, or a row of a CP, AON or PCIe
array: reread once after a write-back. An error that recurs is lasting: spared at the next boot, its data corrected until then
unless they cannot be. -/
def execSramEccError (typ loc : Nat) (check : ReadCheck) (s : State) : Host.Outcome State Fault Refusal :=
  run State.core s fun s =>
    if !([0x02, 0x03, 0x04, 0x05, 0x0C].contains typ) || !locOk typ loc then s
    else match check with
      | .clean => s
      | .correctable false | .uncorrectable false => s.transient typ loc
      | .correctable true => s.lasting typ 1 loc
      | .uncorrectable true => (s.lasting typ 1 loc).sramLost typ loc

/-- SADDLE_PARITY_ERROR: the flit is resent once on its link; an error that recurs brings in a spare track, and with none
left FATAL applies from the next boot. -/
def execSaddleParityError (loc : Nat) (lasting : Bool) (s : State) : Host.Outcome State Fault Refusal :=
  run State.core s fun s =>
    if !locOk 0x07 loc then s else if lasting then s.lasting 0x07 2 loc else s.transient 0x07 loc

/-- TYPE and LOCATION of an engine of a half-plain: unit 0 its SFU, 1 its DMA engine, 2 + k physical core k of its Plain. -/
def engineLoc (h unit : Nat) : Nat × Nat := if unit < 2 then (0x06, h + 32 * unit) else (0x01, h / 2 + 16 * (unit - 2))

/-- ENGINE_CHECK_ERROR: the tile is executed again. An error that recurs faults the stream with ENGINE_LASTING, the
half-plain leaves HP_OK, and a partition left with none takes a PART reset. -/
def execEngineCheckError (halfPlain unit : Nat) (lasting : Bool) (s : State) : Host.Outcome State Fault Refusal :=
  run State.core s fun s =>
    let (typ, loc) := engineLoc halfPlain unit
    if 32 ≤ halfPlain || 7 ≤ unit || !bit s.boot.hpOk.toNat halfPlain then s
    else if !lasting then s.transient typ loc
    else
      let s := (s.lasting typ 1 loc (2 ^ halfPlain)).faultAt halfPlain 0x48
      match halfOwner s halfPlain with
      | some p => if (s.workHps p).isEmpty then s.selfReset p else s
      | none => s

end Sys2Proof.Machine
end

