-- ==== Sys2Proof/Machine/Registers.lean ====
section
/-! DEFINITION. BAR0 registers (R449 to R459): what each reads, latched pairs, reads with an effect, plain writes, and the DBG_ block. -/
namespace Sys2Proof.Machine
open Sys2Proof

/-! ### Where a register lies (Table 6-4) -/

/-- Block and offset in it of a BAR0 offset: 64 KiB each on the PF, 4 KiB on a VF. A VF has the first five and MSI-X. -/
def blockOf (m off : Nat) : Nat × Nat :=
  if m = 0 then (off / 0x10000, off % 0x10000)
  else
    let b := off / 0x1000
    if b < 5 then (b, off % 0x1000) else if b = 8 ∨ b = 9 then (10, off - 0x8000) else (16, 0)

/-- Word `i` of a byte list. -/
def wordAt (l : List Byte) (i : Nat) : Nat := leNat ((l.drop (4 * i)).take 4)

/-! ### Reads, by block -/

def State.regDev (s : State) (m o : Nat) : Nat :=
  let vf := m != 0
  match o with
  | 0x000 => if vf then 0x010761 else 0x010760
  | 0x004 => if vf then 0 else s.fw.version
  | 0x008 => if vf then
      m - 1 + 32 * b2n (s.part (m - 1)).exist + 64 * (s.part (m - 1)).state.code + 256 * b2n (s.part (m - 1)).cfg.confidential
    else wordOf s.sec.serial.toNat false
  | 0x00C => if vf then 0 else wordOf s.sec.serial.toNat true
  | 0x010 => wordOf s.boot.caps.toNat false
  | 0x014 => wordOf s.boot.caps.toNat true
  | 0x018 => match s.boot.stage with
    | .rails => 0
    | .secureBoot => 1
    | .test => 2
    | .train => 3
    | .calibrate => 4
    | .ready => 5
    | .service => 6
  | 0x01C => if vf then 0 else
      s.boot.pin + 4 * (if s.boot.defaultUsed then 0 else s.boot.active) + 16 * b2n s.overrideIndex.isSome + 32 * b2n s.boot.defaultUsed +
      64 * b2n s.boot.pendingIdx.isSome + 256 * s.boot.pendingIdx.getD 0
  | 0x020 => if vf then 0 else sat 16 s.boot.bistTransient
  | _ => 0

def State.regMbx (s : State) (m o : Nat) : Nat :=
  let b := s.mb m
  match o with
  | 0x00 => b2n b.enable
  | 0x04 => b2n b.ready + 2 * b2n s.cpUp + 4 * b2n b.cfgErr + 8 * b2n s.cp.failed + 16 * b2n b.stall
  | 0x08 => s.cp.beat
  | 0x10 => wordOf b.sqBase false
  | 0x14 => wordOf b.sqBase true
  | 0x18 => b.sqSize
  | 0x1C => b.sqTail
  | 0x20 => b.sqHead
  | 0x30 => wordOf b.cqBase false
  | 0x34 => wordOf b.cqBase true
  | 0x38 => b.cqSize
  | 0x3C => b.cqHead
  | 0x50 => wordOf b.eqBase false
  | 0x54 => wordOf b.eqBase true
  | 0x58 => b.eqSize
  | 0x5C => b.eqHead
  | 0x60 => b.lost
  | _ => 0

/-- FORD_STATUSw; a doorbell is write-only. -/
def State.regFord (s : State) (m o : Nat) : Nat :=
  if 0x400 ≤ o ∧ o < 0x600 ∧ o % 8 = 0 then
    let x := s.window m ((o - 0x400) / 8)
    x.head + 2 ^ 12 * b2n x.mapped + 2 ^ 13 * b2n x.unbound + 2 ^ 14 * b2n x.poll + 2 ^ 16 * sat 16 x.violations
  else 0

/-- The next slot of a ring with the PHASE it will get. -/
def tailWord (count size : Nat) : Nat := count % ringSize size + 2 ^ 12 * b2n (count / ringSize size % 2 == 0)

def State.regEvt (s : State) (m o : Nat) : Nat :=
  let b := s.mb m
  match o with
  | 0x00 => tailWord b.cqCount b.cqSize
  | 0x04 => tailWord b.eqCount b.eqSize
  | 0x08 => b.hold.length
  | 0x10 => (s.fn m).coalCq.count + 256 * (s.fn m).coalCq.time
  | 0x14 => (s.fn m).coalEq.count + 256 * (s.fn m).coalEq.time
  | _ => 0

def State.regTime (s : State) (m o : Nat) : Nat :=
  let t := s.time
  match o with
  | 0x00 => wordOf s.now false
  | 0x04 => wordOf s.now true
  | _ => if m != 0 then 0 else match o with
    | 0x10 => t.mode + 4 * b2n t.edge + 8 * b2n t.outEn + 2 ^ 8 * b2n t.ppsSeen + 2 ^ 9 * b2n t.ppsLost + 2 ^ 10 * b2n t.stepDone
    | 0x18 => wordOf t.stamp false
    | 0x1C => wordOf t.stamp true
    | 0x20 => wordOf t.next false
    | 0x24 => wordOf t.next true
    | _ => 0

def State.ideMask (s : State) : Nat := ((List.range 33).map fun f => b2n (s.fn f).ideUp * 2 ^ f).sum

def State.regHif (s : State) (o : Nat) : Nat :=
  let h := s.hif
  match o with
  | 0x00 => b2n h.up + 2 * h.rate + 16 * h.width + 2 ^ 9 * b2n h.flit + 2 ^ 10 * h.pm
  | 0x04 => h.recoveries + 2 ^ 16 * h.replays
  | 0x10 => wordOf s.ideMask false
  | 0x14 => wordOf s.ideMask true
  | 0x20 => wordOf h.ptmMaster false
  | 0x24 => wordOf h.ptmMaster true
  | 0x28 => wordOf h.ptmDevice false
  | 0x2C => wordOf h.ptmDevice true
  | 0x30 => b2n h.ptmValid + 2 ^ 16 * h.ptmCount
  | _ =>
    if 0x100 ≤ o ∧ o < 0x100 + 8 * 33 then
      let x := s.fn ((o - 0x100) / 8)
      if o % 8 = 0 then x.unmappedRd else if o % 8 = 4 then x.unmappedWr else 0
    else 0

def State.regPwr (s : State) (o : Nat) : Nat :=
  match o with
  | 0x00 => s.ladderLevel + 4 * b2n s.sup.faultN + 8 * b2n s.alertN
  | 0x04 => s.sup.alert.toNat
  | _ =>
    if 0x100 ≤ o ∧ o < 0x180 then
      let r := s.rail ((o - 0x100) / 8)
      if o % 8 = 0 then
        r.state.code + 8 * b2n r.cfg.window + 16 * b2n r.cfg.avs + 2 ^ 16 * (if r.cfg.window then r.reading % 65536 else 0)
      else if o % 8 = 4 then sat 16 r.faults + 2 ^ 16 * sat 16 r.glitches else 0
    else 0

def PlainState.code : PlainState → Nat
  | .run => 0
  | .idle => 1
  | .ret => 2
  | .off => 3

/-- CLK_ registers (Table 24-9). In holdover the generators hold their control words and are not locked until all have relocked
(R21), so LOCKED reads 0 there (DEDUCED, log entry 131). -/
def State.regClk (s : State) (o : Nat) : Nat :=
  if o = 0 then
    b2n s.clk.holdover + 2 * b2n (s.plains.all (·.locked) && !s.clk.holdover) + 4 * b2n (s.clk.goodSince.isSome && !s.clk.qualified) +
    2 ^ 8 * offsetCode s.clk.offset + 2 ^ 16 * sat 16 s.clk.lossCount
  else if 0x100 ≤ o ∧ o < 0x140 ∧ o % 4 = 0 then
    let p := (o - 0x100) / 4
    let x := s.plain p
    x.current + 2 ^ 8 * x.target + 2 ^ 16 * x.limit + 2 ^ 24 * s.dutyOf p + 2 ^ 28 * x.state.code
  else 0

/-- TDI states of the VFs, two bits each. -/
def State.tdiMask (s : State) : Nat := ((List.range 32).map fun i => s.tdiCode (i + 1) * 4 ^ i).sum

def State.regSec (s : State) (o : Nat) : Nat :=
  match o with
  | 0x00 => s.sec.lifecycle + 8 * s.sec.level + 32 * b2n s.approved + 64 * b2n s.sec.error + 128 * b2n s.sec.selfTest
  | 0x04 => s.arbCounter + 2 ^ 16 * s.arbUsed
  | 0x08 => wordOf s.tdiMask false
  | 0x0C => wordOf s.tdiMask true
  | _ => 0

/-- The counter that DBG_PERF_SEL selects. -/
def State.perfCount (s : State) : Nat := (s.dbg.perf.getD (s.dbg.perfSel % 16) []).getD (s.dbg.perfSel / 16 % 8) 0

/-- DBG_ registers: log, trace and performance from OBSERVE, memory and CP from INVASIVE; zero below (R458). -/
def State.regDbg (s : State) (o : Nat) : Nat :=
  let d := s.dbg
  if o < 0x100 then
    if s.sec.level = 0 then 0
    else match o with
      | 0x00 => d.logSel
      | 0x40 => d.perfSel
      | 0x48 => wordOf s.perfCount false
      | 0x4C => wordOf s.perfCount true
      | 0x60 => d.traceIdx
      | _ =>
        if 0x20 ≤ o ∧ o < 0x40 ∧ o % 4 = 0 then wordAt d.logLatch ((o - 0x20) / 4)
        else if 0x70 ≤ o ∧ o < 0x80 ∧ o % 4 = 0 then wordAt d.traceLatch ((o - 0x70) / 4)
        else 0
  else if s.sec.level = 2 then
    match o with
    | 0x100 => wordOf d.memAddr false
    | 0x104 => wordOf d.memAddr true
    | 0x108 => wordOf d.memData.toNat false
    | 0x10C => wordOf d.memData.toNat true
    | 0x110 => d.cpHalt.toNat
    | _ => 0
  else 0

/-- The MSI-X table and pending bits (R459). -/
def State.regMsix (s : State) (m o : Nat) : Nat :=
  let vs := (s.fn m).vecs
  if o < 16 * vs.length then
    let v := vs.getD (o / 16) {}
    match o % 16 with
    | 0 => wordOf v.addr false
    | 4 => wordOf v.addr true
    | 8 => v.data
    | 12 => b2n v.masked
    | _ => 0
  else if 0x1000 ≤ o ∧ o < 0x1008 ∧ o % 4 = 0 then
    ((List.range 32).map fun i => b2n (vs.getD (i + 8 * (o - 0x1000)) {}).pend * 2 ^ i).sum
  else 0

/-- The 32 bits at a BAR0 offset, as they stand; what is not listed reads zero (R2, R449). -/
def State.reg (s : State) (m off : Nat) : Nat :=
  let (b, o) := blockOf m off
  match b with
  | 0 => s.regDev m o
  | 1 => s.regMbx m o
  | 2 => s.regFord m o
  | 3 => s.regEvt m o
  | 4 => s.regTime m o
  | 5 => s.regHif o
  | 6 => s.regPwr o
  | 7 => s.regClk o
  | 8 => s.regSec o
  | 9 => s.regDbg o
  | 10 => s.regMsix m o
  | _ => 0

/-! ### Latched pairs (R450, R456) -/

/-- Block and offset of the _LO half of a read-only pair. The PTM times have a latch of their own. -/
def roPair (m : Nat) : Nat × Nat → Bool
  | (0, 0x008) => m == 0
  | (0, 0x010) => true
  | (4, 0x000) => true
  | (4, 0x018) => m == 0
  | (5, 0x010) | (8, 0x008) | (9, 0x048) => m == 0
  | _ => false

/-- Offsets that answer from a latch: the _HI halves, and what HIF_PTM_MASTER_LO latches. -/
def latched (m : Nat) (x : Nat × Nat) : Bool :=
  (4 ≤ x.2 && roPair m (x.1, x.2 - 4)) || (m == 0 && x.1 == 5 && [0x24, 0x28, 0x2C].contains x.2)

def State.setLatch (s : State) (m off v : Nat) : State :=
  s.updFn m fun x => { x with hiLatch := (off, v) :: x.hiLatch.filter (·.1 != off) }

/-- The latched value of an offset, 0 before a first latch (log entry 72). -/
def State.latchOf (s : State) (m off : Nat) : Nat := (((s.fn m).hiLatch.find? (·.1 == off)).map (·.2)).getD 0

/-- A read of a function's BAR0 is answered by its registers. -/
def State.bar0On (s : State) (m : Nat) : Bool := s.bar0Valid && m < 33 && (s.fn m).enabled

/-- What the performance counter has counted since it was last read is a free value (log entry 73). -/
def State.perfRead (s : State) : State :=
  if s.sec.level = 0 then s
  else
    let (v, s) := s.free
    let more (l : List Nat) : List Nat := updAt l (s.dbg.perfSel / 16 % 8) fun c => sat 64 (c + v)
    { s with dbg := { s.dbg with perf := updAt s.dbg.perf (s.dbg.perfSel % 16) more } }

/-- A word as a read finds it: from its latch, or as it stands. -/
def State.regWord (s : State) (m off : Nat) : Nat := if latched m (blockOf m off) then s.latchOf m off else s.reg m off

/-- A read of the _LO half of a read-only pair latches its _HI half; 8 bytes read both at once. -/
def State.pairRead (s : State) (m off size : Nat) : State :=
  let s := if blockOf m off == (9, 0x048) then s.perfRead else s
  { s.setLatch m (off + 4) (s.reg m (off + 4)) with
    readData := s.reg m off + (if size = 8 then s.reg m (off + 4) * 2 ^ 32 else 0) }

/-- LO_REGISTER_READ: 4 or 8 aligned bytes at a BAR0 offset; a read of any other size or alignment returns zero. The _LO half
of a read-only pair latches its _HI half, which answers a 4-byte read from that latch; any other register answers as it stands
(log entry 72). -/
def execLoRegisterRead (m off size : Nat) (ide : Bool) (s : State) : Host.Outcome State Fault Refusal :=
  barRun State.core m ide true s fun s =>
    if !s.bar0On m then s
    else if !(size == 4 || size == 8) || off % size != 0 then { s with readData := 0 }
    else if roPair m (blockOf m off) then s.pairRead m off size
    else { s with readData := s.regWord m off + (if size = 8 then s.regWord m (off + 4) * 2 ^ 32 else 0) }

/-- HIF_PTM_MASTER_LO_READ: both times of the last dialogue latched together. -/
def execHifPtmMasterLoRead (s : State) : Host.Outcome State Fault Refusal :=
  run State.core s fun s =>
    if !s.bar0On 0 then s
    else
      let put (s : State) (o : Nat) : State := s.setLatch 0 (0x50000 + o) (s.regHif o)
      { [0x24, 0x28, 0x2C].foldl put s with readData := s.regHif 0x20 }

/-- HIF_LINK_ERR_READ: the counters returned and cleared. -/
def execHifLinkErrRead (s : State) : Host.Outcome State Fault Refusal :=
  run State.core s fun s =>
    if !s.bar0On 0 then s
    else { s with readData := s.regHif 4, hif := { s.hif with recoveries := 0, replays := 0 } }

/-! ### PWR_ALERT_CAUSE (R457) -/

/-- A write of PWR_ALERT_CAUSE: ones clear their causes, except those whose condition holds. -/
def State.alertWrite (s : State) (v : Nat) : State :=
  let keep := maskOf 8 fun i => !bit v i || s.causeHeld i
  { s with sup := { s.sup with alert := s.sup.alert &&& BitVec.ofNat 8 keep } }

/-- PWR_ALERT_CAUSE_WRITE. -/
def execPwrAlertCauseWrite (v : BitVec 32) (s : State) : Host.Outcome State Fault Refusal :=
  run State.core s fun s => if !s.bar0On 0 then s else s.alertWrite v.toNat

/-! ### DBG_ (R458) -/

/-- The 32 bytes of the selected log record; an INDEX with none behind it reads zero. -/
def State.logBytes (s : State) : List Byte :=
  let i := s.dbg.logSel / 2 % 8192
  if s.dbg.logSel % 2 = 0 then
    match s.logs.aon[i]? with
    | some r => r.bytes
    | none => List.replicate 32 0
  else
    let l := chunk (s.flashByte crashBase) (32 * i) 32
    if l.all (· == 0xFF) then List.replicate 32 0 else l

/-- DBG_LOG_DATA0_READ: the record latched, its first word returned. -/
def execDbgLogData0Read (s : State) : Host.Outcome State Fault Refusal :=
  run State.core s fun s =>
    if !s.bar0On 0 then s
    else if s.sec.level = 0 then { s with readData := 0 }
    else
      let l := s.logBytes
      { s with dbg := { s.dbg with logLatch := l }, readData := wordAt l 0 }

/-- The 16 bytes of the selected trace record (Table 24-11). -/
def State.traceBytes (s : State) : List Byte :=
  let (t, h, d, o, p) := s.dbg.trace.getD s.dbg.traceIdx (0, 0, 0, 0, 0)
  leBytes 8 t ++ leBytes 4 h ++ leBytes 2 d ++ leBytes 1 o ++ leBytes 1 p

/-- DBG_TRACE_DATA0_READ. -/
def execDbgTraceData0Read (s : State) : Host.Outcome State Fault Refusal :=
  run State.core s fun s =>
    if !s.bar0On 0 then s
    else if s.sec.level = 0 then { s with readData := 0 }
    else
      let l := s.traceBytes
      { s with dbg := { s.dbg with traceLatch := l }, readData := wordAt l 0 }

/-- DBG_MEM_DATA_LO_READ: the word read, its low half returned, ADDR advanced; a refused word reads zero and ADDR stays (log
entry 74). -/
def execDbgMemDataLoRead (s : State) : Host.Outcome State Fault Refusal :=
  run State.core s fun s =>
    if !s.bar0On 0 then s
    else if s.sec.level != 2 then { s with readData := 0 }
    else match s.dbgWord with
      | .refused => { s with readData := 0, dbg := { s.dbg with memData := 0 } }
      | .wait p => (s.dbgHold none).wakePlain p
      | .at' a => { s.dbgAccess a none with dbg := (s.dbgAccess a none).dbg.advance }

/-- A write of DBG_MEM_DATA_HI: both halves written at ADDR, which advances. -/
def State.memDataHi (s : State) (v : BitVec 32) : State :=
  match s.dbgWord with
  | .refused => s
  | .wait p => (s.dbgHold (some (s.dbgData v))).wakePlain p
  | .at' a => { s.dbgAccess a (some (s.dbgData v)) with dbg := (s.dbgAccess a (some (s.dbgData v))).dbg.advance }

/-- DBG_MEM_DATA_HI_WRITE. -/
def execDbgMemDataHiWrite (v : BitVec 32) (s : State) : Host.Outcome State Fault Refusal :=
  run State.core s fun s => if !s.bar0On 0 || s.sec.level != 2 then s else s.memDataHi v

/-- A write of DBG_CP_HALT: one bit for each control core. The watchdog counts afresh from the end of a halt. -/
def State.cpHaltWrite (s : State) (v : BitVec 4) : State :=
  { s with dbg := { s.dbg with cpHalt := v },
           cp := if s.dbg.cpHalt != 0 && v == 0 then { s.cp with lastBeat := s.now } else s.cp }

/-- DBG_CP_HALT. -/
def execDbgCpHalt (v : BitVec 4) (s : State) : Host.Outcome State Fault Refusal :=
  run State.core s fun s => if !s.bar0On 0 || s.sec.level != 2 then s else s.cpHaltWrite v

/-- A write of DBG_CP_STEP: halted cores execute one instruction each, which the counts show. -/
def State.cpStepWrite (s : State) (v : BitVec 4) : State :=
  { s with dbg := { s.dbg with cpSteps := s.dbg.cpSteps.mapIdx fun i n => if bit v.toNat i && bit s.dbg.cpHalt.toNat i then n + 1 else n } }

/-- DBG_CP_STEP. -/
def execDbgCpStep (v : BitVec 4) (s : State) : Host.Outcome State Fault Refusal :=
  run State.core s fun s => if !s.bar0On 0 || s.sec.level != 2 then s else s.cpStepWrite v

/-! ### Plain writes (R449) -/

/-- A write to a mailbox's bases and sizes; ignored while ENABLE is 1 (R453). -/
def Mailbox.regWrite (b : Mailbox) (o w : Nat) : Mailbox :=
  if b.enable then b
  else match o with
    | 0x10 => { b with sqBase := setLo b.sqBase (w / 4096 * 4096) }
    | 0x14 => { b with sqBase := setHi b.sqBase w }
    | 0x18 => { b with sqSize := w % 16 }
    | 0x30 => { b with cqBase := setLo b.cqBase (w / 4096 * 4096) }
    | 0x34 => { b with cqBase := setHi b.cqBase w }
    | 0x38 => { b with cqSize := w % 16 }
    | 0x50 => { b with eqBase := setLo b.eqBase (w / 4096 * 4096) }
    | 0x54 => { b with eqBase := setHi b.eqBase w }
    | 0x58 => { b with eqSize := w % 16 }
    | _ => b

/-- A write to TIME_PPS_CTRL and TIME_PPS_NEXT (Table 2-4). TIME_PPS_OUT falls with OUT_EN. -/
def Time.regWrite (t : Time) (o w : Nat) : Time :=
  match o with
  | 0x10 => { t with mode := bits w 0 2, edge := bit w 2, outEn := bit w 3, ppsSeen := t.ppsSeen && !bit w 8,
                     stepDone := t.stepDone && !bit w 10, ppsOut := t.ppsOut && bit w 3 }
  | 0x20 => { t with next := setLo t.next w }
  | 0x24 => { t with next := setHi t.next w }
  | _ => t

/-- A write to the DBG_ selections, from the level that opens them. -/
def Dbg.regWrite (d : Dbg) (level o w : Nat) : Dbg :=
  match o with
  | 0x000 => if level = 0 then d else { d with logSel := bits w 0 14 }
  | 0x040 => if level = 0 then d else { d with perfSel := bits w 0 8 }
  | 0x060 => if level = 0 then d else { d with traceIdx := bits w 0 12 }
  | 0x100 => if level = 2 then { d with memAddr := setLo d.memAddr (w / 8 * 8) } else d
  | 0x104 => if level = 2 then { d with memAddr := setHi d.memAddr (w % 256) } else d
  | 0x108 => if level = 2 then { d with memData := BitVec.ofNat 64 (setLo d.memData.toNat w) } else d
  | _ => d

/-- A write to an MSI-X table entry; clearing the mask sends what is pending (R121). -/
def Fn.msixWrite (x : Fn) (o w : Nat) : Fn :=
  { x with vecs := updAt x.vecs (o / 16) fun v => match o % 16 with
    | 0 => { v with addr := setLo v.addr (w / 4 * 4) }
    | 4 => { v with addr := setHi v.addr w }
    | 8 => { v with data := w }
    | 12 => if bit w 0 then { v with masked := true } else v.unmask
    | _ => v }

/-- A write of 32 bits. Registers with a row of their own, read-only ones and reserved offsets are left. -/
def State.regWrite (s : State) (m off w : Nat) : State :=
  let (b, o) := blockOf m off
  match b with
  | 1 => if s.mbxOpen m then s.updMb m (·.regWrite o w) else s
  | 3 => s.updFn m fun x => match o with
    | 0x10 => { x with coalCq := { x.coalCq with count := bits w 0 8, time := bits w 8 16 } }
    | 0x14 => { x with coalEq := { x.coalEq with count := bits w 0 8, time := bits w 8 16 } }
    | _ => x
  | 4 => if m = 0 then { s with time := s.time.regWrite o w } else s
  | 9 => { s with dbg := s.dbg.regWrite s.sec.level o w }
  | 10 => s.updFn m (·.msixWrite o w)
  | _ => s

/-- A write of 32 bits at a BAR0 offset of any register: one with a row of its own does what that row does. -/
def State.wordWrite (s : State) (m off w : Nat) : State :=
  let dbg (f : State → State) : State := if m = 0 && s.sec.level == 2 then f s else s
  match blockOf m off with
  | (1, 0x00) => if bit w 0 then s.mbxEnable m else s.mbxDisable m
  | (1, 0x1C) => s.sqTail m w
  | (1, 0x3C) => s.cqHeadWrite m w
  | (1, 0x5C) => s.eqHeadWrite m w
  | (2, o) => if o < 0x200 && o % 8 = 0 then s.dbWrite m (o / 8) w else s
  | (6, 0x04) => if m = 0 then s.alertWrite w else s
  | (6, 0x08) => if m = 0 && bit w 0 then s.wake else s
  | (9, 0x10C) => dbg fun s => s.memDataHi (BitVec.ofNat 32 w)
  | (9, 0x110) => dbg fun s => s.cpHaltWrite (BitVec.ofNat 4 w)
  | (9, 0x114) => dbg fun s => s.cpStepWrite (BitVec.ofNat 4 w)
  | _ => s.regWrite m off w

/-- REGISTER_WRITE of 4 or 8 aligned bytes; any other is ignored. -/
def execRegisterWrite (m off size : Nat) (v : BitVec 64) (ide : Bool) (s : State) : Host.Outcome State Fault Refusal :=
  barRun State.core m ide false s fun s =>
    if !s.bar0On m || !(size == 4 || size == 8) || off % size != 0 then s
    else
      let s := s.wordWrite m off (wordOf v.toNat false)
      if size = 8 then s.wordWrite m (off + 4) (wordOf v.toNat true) else s

end Sys2Proof.Machine
end

