-- ==== Sys2Proof/Machine/Dispatch.lean ====
section
/-! DEFINITION. The meaning of every command: one arm per constructor of Instr. -/
namespace Sys2Proof.Machine
open Sys2Proof

/-- The effect of a command on everything but the queue. -/
def exec (i : Instr) (s : State) : Host.Outcome State Fault Refusal :=
  match i with
  | .devInfo m c => Sys2Proof.Machine.execDevInfo m c s
  | .devCaps m c => Sys2Proof.Machine.execDevCaps m c s
  | .devTimeGet m c => Sys2Proof.Machine.execDevTimeGet m c s
  | .devResetWarm m c => Sys2Proof.Machine.execDevResetWarm m c s
  | .devPowerState m c => Sys2Proof.Machine.execDevPowerState m c s
  | .profileApply m c => Sys2Proof.Machine.execProfileApply m c s
  | .profileWrite m c => Sys2Proof.Machine.execProfileWrite m c s
  | .profileRead m c => Sys2Proof.Machine.execProfileRead m c s
  | .partCreate m c => Sys2Proof.Machine.execPartCreate m c s
  | .partDestroy m c => Sys2Proof.Machine.execPartDestroy m c s
  | .partReset m c => Sys2Proof.Machine.execPartReset m c s
  | .partQuery m c => Sys2Proof.Machine.execPartQuery m c s
  | .streamOpen m c => Sys2Proof.Machine.execStreamOpen m c s
  | .streamSubmit m c => Sys2Proof.Machine.execStreamSubmit m c s
  | .streamCancel m c => Sys2Proof.Machine.execStreamCancel m c s
  | .streamClose m c => Sys2Proof.Machine.execStreamClose m c s
  | .streamQuery m c => Sys2Proof.Machine.execStreamQuery m c s
  | .memAlloc m c => Sys2Proof.Machine.execMemAlloc m c s
  | .memFree m c => Sys2Proof.Machine.execMemFree m c s
  | .ledgerReserve m c => Sys2Proof.Machine.execLedgerReserve m c s
  | .ledgerRelease m c => Sys2Proof.Machine.execLedgerRelease m c s
  | .ledgerQuery m c => Sys2Proof.Machine.execLedgerQuery m c s
  | .kvPoolCreate m c => Sys2Proof.Machine.execKvPoolCreate m c s
  | .kvPoolDestroy m c => Sys2Proof.Machine.execKvPoolDestroy m c s
  | .kvFork m c => Sys2Proof.Machine.execKvFork m c s
  | .kvTruncate m c => Sys2Proof.Machine.execKvTruncate m c s
  | .kvPinPrefix m c => Sys2Proof.Machine.execKvPinPrefix m c s
  | .syncAlloc m c => Sys2Proof.Machine.execSyncAlloc m c s
  | .syncFree m c => Sys2Proof.Machine.execSyncFree m c s
  | .syncRecover m c => Sys2Proof.Machine.execSyncRecover m c s
  | .syncQuery m c => Sys2Proof.Machine.execSyncQuery m c s
  | .fordMap m c => Sys2Proof.Machine.execFordMap m c s
  | .fordUnmap m c => Sys2Proof.Machine.execFordUnmap m c s
  | .mediaEncOpen m c => Sys2Proof.Machine.execMediaEncOpen m c s
  | .mediaEncClose m c => Sys2Proof.Machine.execMediaEncClose m c s
  | .mediaDecOpen m c => Sys2Proof.Machine.execMediaDecOpen m c s
  | .mediaDecFlush m c => Sys2Proof.Machine.execMediaDecFlush m c s
  | .mediaDecClose m c => Sys2Proof.Machine.execMediaDecClose m c s
  | .mediaKeyRequest m c => Sys2Proof.Machine.execMediaKeyRequest m c s
  | .mediaRoiSet m c => Sys2Proof.Machine.execMediaRoiSet m c s
  | .mediaLayerSet m c => Sys2Proof.Machine.execMediaLayerSet m c s
  | .passRetrain m c => Sys2Proof.Machine.execPassRetrain m c s
  | .passStatus m c => Sys2Proof.Machine.execPassStatus m c s
  | .valleyJoin m c => Sys2Proof.Machine.execValleyJoin m c s
  | .valleyLeave m c => Sys2Proof.Machine.execValleyLeave m c s
  | .valleyRouteSet m c => Sys2Proof.Machine.execValleyRouteSet m c s
  | .collGroupCreate m c => Sys2Proof.Machine.execCollGroupCreate m c s
  | .collGroupDestroy m c => Sys2Proof.Machine.execCollGroupDestroy m c s
  | .acctRead m c => Sys2Proof.Machine.execAcctRead m c s
  | .acctModeSet m c => Sys2Proof.Machine.execAcctModeSet m c s
  | .secAttest m c => Sys2Proof.Machine.execSecAttest m c s
  | .secDebugChallenge m c => Sys2Proof.Machine.execSecDebugChallenge m c s
  | .secDebugUnlock m c => Sys2Proof.Machine.execSecDebugUnlock m c s
  | .secDebugLock m c => Sys2Proof.Machine.execSecDebugLock m c s
  | .secLifecycleSet m c => Sys2Proof.Machine.execSecLifecycleSet m c s
  | .fwDownload m c => Sys2Proof.Machine.execFwDownload m c s
  | .fwVerify m c => Sys2Proof.Machine.execFwVerify m c s
  | .fwActivate m c => Sys2Proof.Machine.execFwActivate m c s
  | .fwConfirm m c => Sys2Proof.Machine.execFwConfirm m c s
  | .fwStatus m c => Sys2Proof.Machine.execFwStatus m c s
  | .testDefectsRead m c => Sys2Proof.Machine.execTestDefectsRead m c s
  | .testRun m c => Sys2Proof.Machine.execTestRun m c s
  | .hbmRepair m c => Sys2Proof.Machine.execHbmRepair m c s
  | .hbmRetrain m c => Sys2Proof.Machine.execHbmRetrain m c s
  | .railStatus m c => Sys2Proof.Machine.execRailStatus m c s
  | .railThreshSet m c => Sys2Proof.Machine.execRailThreshSet m c s
  | .thermalQuery m c => Sys2Proof.Machine.execThermalQuery m c s
  | .mbxSqTailWrite m v ide => Sys2Proof.Machine.execMbxSqTailWrite m v ide s
  | .entryTake m e => Sys2Proof.Machine.execEntryTake m e s
  | .mbxEnable m ide => Sys2Proof.Machine.execMbxEnable m ide s
  | .mbxDisable m ide => Sys2Proof.Machine.execMbxDisable m ide s
  | .mbxCqHeadWrite m v ide => Sys2Proof.Machine.execMbxCqHeadWrite m v ide s
  | .mbxEqHeadWrite m v ide => Sys2Proof.Machine.execMbxEqHeadWrite m v ide s
  | .evtCoalTimer m vector => Sys2Proof.Machine.execEvtCoalTimer m vector s
  | .cpFreqTargetSet plain code => Sys2Proof.Machine.execCpFreqTargetSet plain code s
  | .avsVoltageWrite quad steps => Sys2Proof.Machine.execAvsVoltageWrite quad steps s
  | .avsSettled quad => Sys2Proof.Machine.execAvsSettled quad s
  | .avsSettleTimeout quad => Sys2Proof.Machine.execAvsSettleTimeout quad s
  | .plainFreqStep plain => Sys2Proof.Machine.execPlainFreqStep plain s
  | .generatorLock plain => Sys2Proof.Machine.execGeneratorLock plain s
  | .refFreqEstimate ppm50 => Sys2Proof.Machine.execRefFreqEstimate ppm50 s
  | .ppsInEdge rising => Sys2Proof.Machine.execPpsInEdge rising s
  | .railJudgedGood ch pins regs => Sys2Proof.Machine.execRailJudgedGood ch pins regs s
  | .railOnTimeout ch => Sys2Proof.Machine.execRailOnTimeout ch s
  | .railWindowFault ch reading samples => Sys2Proof.Machine.execRailWindowFault ch reading samples s
  | .railGlitch ch reading samples => Sys2Proof.Machine.execRailGlitch ch reading samples s
  | .railPgFault ch low => Sys2Proof.Machine.execRailPgFault ch low s
  | .recurrenceWindowEnd ch => Sys2Proof.Machine.execRecurrenceWindowEnd ch s
  | .railFallen ch reading => Sys2Proof.Machine.execRailFallen ch reading s
  | .railOffTimeout ch => Sys2Proof.Machine.execRailOffTimeout ch s
  | .pmbAlert words => Sys2Proof.Machine.execPmbAlert words s
  | .pmbusTelemetryPoll word values => Sys2Proof.Machine.execPmbusTelemetryPoll word values s
  | .pmbusVoutPoll ch mv acked => Sys2Proof.Machine.execPmbusVoutPoll ch mv acked s
  | .pmbusSclTimeout ch => Sys2Proof.Machine.execPmbusSclTimeout ch s
  | .plainThermalSample plain quarters => Sys2Proof.Machine.execPlainThermalSample plain quarters s
  | .plainFreqLimitStep plain => Sys2Proof.Machine.execPlainFreqLimitStep plain s
  | .plainThrottleRelease plain => Sys2Proof.Machine.execPlainThrottleRelease plain s
  | .plainThermalTrip plain quarters => Sys2Proof.Machine.execPlainThermalTrip plain quarters s
  | .plainIdle plain => Sys2Proof.Machine.execPlainIdle plain s
  | .plainRetEntry plain => Sys2Proof.Machine.execPlainRetEntry plain s
  | .plainRetExitDone plain => Sys2Proof.Machine.execPlainRetExitDone plain s
  | .plainOff plain => Sys2Proof.Machine.execPlainOff plain s
  | .pwrWakeWrite v => Sys2Proof.Machine.execPwrWakeWrite v s
  | .pldmSensorRead sensor => Sys2Proof.Machine.execPldmSensorRead sensor s
  | .keeperBar0Access m off write => Sys2Proof.Machine.execKeeperBar0Access m off write s
  | .secureBootDone selfTests part => Sys2Proof.Machine.execSecureBootDone selfTests part s
  | .startTestDone results => Sys2Proof.Machine.execStartTestDone results s
  | .calibrationDone costs beRate => Sys2Proof.Machine.execCalibrationDone costs beRate s
  | .vfFlr n => Sys2Proof.Machine.execVfFlr n s
  | .vfEnableSet numVfs ari => Sys2Proof.Machine.execVfEnableSet numVfs ari s
  | .bar2Resize m shift => Sys2Proof.Machine.execBar2Resize m shift s
  | .msixUnmask m vector ide => Sys2Proof.Machine.execMsixUnmask m vector ide s
  | .ideKmKeyProg f key => Sys2Proof.Machine.execIdeKmKeyProg f key s
  | .ideKmKeySetGo f => Sys2Proof.Machine.execIdeKmKeySetGo f s
  | .ideKmKeySetStop f => Sys2Proof.Machine.execIdeKmKeySetStop f s
  | .lockInterface n => Sys2Proof.Machine.execLockInterface n s
  | .stopInterface n => Sys2Proof.Machine.execStopInterface n s
  | .spdmRequest code slot => Sys2Proof.Machine.execSpdmRequest code slot s
  | .ptmDialogue master => Sys2Proof.Machine.execPtmDialogue master s
  | .fordDbWrite m w v ide => Sys2Proof.Machine.execFordDbWrite m w v ide s
  | .fordRescan m w => Sys2Proof.Machine.execFordRescan m w s
  | .fordFlagWrite m w byte v ide => Sys2Proof.Machine.execFordFlagWrite m w byte v ide s
  | .fordDataWrite m off data ep ide => Sys2Proof.Machine.execFordDataWrite m off data ep ide s
  | .bar2UnmappedAccess m off write ide => Sys2Proof.Machine.execBar2UnmappedAccess m off write ide s
  | .pwrAlertCauseWrite v => Sys2Proof.Machine.execPwrAlertCauseWrite v s
  | .loRegisterRead m off size ide => Sys2Proof.Machine.execLoRegisterRead m off size ide s
  | .dbgMemDataHiWrite v => Sys2Proof.Machine.execDbgMemDataHiWrite v s
  | .dbgCpHalt v => Sys2Proof.Machine.execDbgCpHalt v s
  | .dbgCpStep v => Sys2Proof.Machine.execDbgCpStep v s
  | .registerWrite m off size v ide => Sys2Proof.Machine.execRegisterWrite m off size v ide s
  | .matmul x d => Sys2Proof.Machine.execMatmul x d s
  | .conv x d => Sys2Proof.Machine.execConv x d s
  | .tconv x d => Sys2Proof.Machine.execTconv x d s
  | .attn x d => Sys2Proof.Machine.execAttn x d s
  | .norm x d => Sys2Proof.Machine.execNorm x d s
  | .sfu x d => Sys2Proof.Machine.execSfu x d s
  | .softmax x d => Sys2Proof.Machine.execSoftmax x d s
  | .quant x d => Sys2Proof.Machine.execQuant x d s
  | .copy x d => Sys2Proof.Machine.execCopy x d s
  | .coll x d => Sys2Proof.Machine.execColl x d s
  | .syncWait x d => Sys2Proof.Machine.execSyncWait x d s
  | .syncSignal x d => Sys2Proof.Machine.execSyncSignal x d s
  | .kvAppend x d => Sys2Proof.Machine.execKvAppend x d s
  | .compose x d => Sys2Proof.Machine.execCompose x d s
  | .descriptorEnd x d => Sys2Proof.Machine.execDescriptorEnd x d s
  | .preemptAtTileBoundary x d => Sys2Proof.Machine.execPreemptAtTileBoundary x d s
  | .waitTimeout x => Sys2Proof.Machine.execWaitTimeout x s
  | .remoteWaitResend x => Sys2Proof.Machine.execRemoteWaitResend x s
  | .streamTeardown x => Sys2Proof.Machine.execStreamTeardown x s
  | .partDrainDone p => Sys2Proof.Machine.execPartDrainDone p s
  | .tagForceRetire kind unit count => Sys2Proof.Machine.execTagForceRetire kind unit count s
  | .partHbmScrubDone p b => Sys2Proof.Machine.execPartHbmScrubDone p b s
  | .partReady p => Sys2Proof.Machine.execPartReady p s
  | .frameScrubDone b frame => Sys2Proof.Machine.execFrameScrubDone b frame s
  | .ledgerRecovered kind index dir => Sys2Proof.Machine.execLedgerRecovered kind index dir s
  | .basinArbitrate b arrivals check => Sys2Proof.Machine.execBasinArbitrate b arrivals check s
  | .patrolScrub b check => Sys2Proof.Machine.execPatrolScrub b check s
  | .hbmEccReportRead b rows => Sys2Proof.Machine.execHbmEccReportRead b rows s
  | .basinThermalRead b t => Sys2Proof.Machine.execBasinThermalRead b t s
  | .basinThermalRelease b => Sys2Proof.Machine.execBasinThermalRelease b s
  | .basinDrainDone b => Sys2Proof.Machine.execBasinDrainDone b s
  | .basinTrainDone b ok rows again lanes => Sys2Proof.Machine.execBasinTrainDone b ok rows again lanes s
  | .basinRetrainTrigger b cause => Sys2Proof.Machine.execBasinRetrainTrigger b cause s
  | .passSignalDetect p => Sys2Proof.Machine.execPassSignalDetect p s
  | .passTrainStateDone p r => Sys2Proof.Machine.execPassTrainStateDone p r s
  | .passTrainTimeout p => Sys2Proof.Machine.execPassTrainTimeout p s
  | .passDriftRetrain p ppm => Sys2Proof.Machine.execPassDriftRetrain p ppm s
  | .portIdleTimeout p => Sys2Proof.Machine.execPortIdleTimeout p s
  | .flitReceive p f => Sys2Proof.Machine.execFlitReceive p f s
  | .flitSend p => Sys2Proof.Machine.execFlitSend p s
  | .rdReq p g => Sys2Proof.Machine.execRdReq p g s
  | .wrReq p g => Sys2Proof.Machine.execWrReq p g s
  | .syncOp p g => Sys2Proof.Machine.execSyncOp p g s
  | .rdRsp p g => Sys2Proof.Machine.execRdRsp p g s
  | .wrAck p g => Sys2Proof.Machine.execWrAck p g s
  | .syncRsp p g => Sys2Proof.Machine.execSyncRsp p g s
  | .refuse p g => Sys2Proof.Machine.execRefuse p g s
  | .hold p g => Sys2Proof.Machine.execHold p g s
  | .holdTimer src tag => Sys2Proof.Machine.execHoldTimer src tag s
  | .release p g => Sys2Proof.Machine.execRelease p g s
  | .requestTimerExpiry dst tag => Sys2Proof.Machine.execRequestTimerExpiry dst tag s
  | .dedupEntryExpiry src tag => Sys2Proof.Machine.execDedupEntryExpiry src tag s
  | .dedupFullResend dst tag => Sys2Proof.Machine.execDedupFullResend dst tag s
  | .collData p g => Sys2Proof.Machine.execCollData p g s
  | .collReady p g => Sys2Proof.Machine.execCollReady p g s
  | .collSlow p g => Sys2Proof.Machine.execCollSlow p g s
  | .collWithdrawn p g => Sys2Proof.Machine.execCollWithdrawn p g s
  | .collAbort p g => Sys2Proof.Machine.execCollAbort p g s
  | .collTimeout group => Sys2Proof.Machine.execCollTimeout group s
  | .heartbeat p g => Sys2Proof.Machine.execHeartbeat p g s
  | .join p g => Sys2Proof.Machine.execJoin p g s
  | .leave p g => Sys2Proof.Machine.execLeave p g s
  | .loss p g => Sys2Proof.Machine.execLoss p g s
  | .ownerNotice p g => Sys2Proof.Machine.execOwnerNotice p g s
  | .noRouteTimeout chip => Sys2Proof.Machine.execNoRouteTimeout chip s
  | .frameLatch ctx => Sys2Proof.Machine.execFrameLatch ctx s
  | .layerGraceExpiry ctx => Sys2Proof.Machine.execLayerGraceExpiry ctx s
  | .mediaRowStart core => Sys2Proof.Machine.execMediaRowStart core s
  | .mediaRowEnd core r => Sys2Proof.Machine.execMediaRowEnd core r s
  | .sramEccError typ loc check => Sys2Proof.Machine.execSramEccError typ loc check s
  | .saddleParityError loc lasting => Sys2Proof.Machine.execSaddleParityError loc lasting s
  | .engineCheckError halfPlain unit lasting => Sys2Proof.Machine.execEngineCheckError halfPlain unit lasting s
  | .mediaCoreCheckError core lasting => Sys2Proof.Machine.execMediaCoreCheckError core lasting s
  | .hbmRepairDone b ok bad => Sys2Proof.Machine.execHbmRepairDone b ok bad s
  | .testRunDone failed again => Sys2Proof.Machine.execTestRunDone failed again s
  | .plainPowerUpDone plain => Sys2Proof.Machine.execPlainPowerUpDone plain s
  | .pcieLinkTrained width rate flit => Sys2Proof.Machine.execPcieLinkTrained width rate flit s
  | .configurationRequest m reg write forbidden => Sys2Proof.Machine.execConfigurationRequest m reg write forbidden s
  | .startInterface n => Sys2Proof.Machine.execStartInterface n s
  | .jtagInstruction op => Sys2Proof.Machine.execJtagInstruction op s
  | .cpHeartbeatTick => Sys2Proof.Machine.execCpHeartbeatTick s
  | .cpException => Sys2Proof.Machine.execCpException s
  | .cpWatchdogExpiry => Sys2Proof.Machine.execCpWatchdogExpiry s
  | .cpRestartDone => Sys2Proof.Machine.execCpRestartDone s
  | .refLossDeclared gap => Sys2Proof.Machine.execRefLossDeclared gap s
  | .refQualified => Sys2Proof.Machine.execRefQualified s
  | .relockComplete => Sys2Proof.Machine.execRelockComplete s
  | .ppsLost => Sys2Proof.Machine.execPpsLost s
  | .ppsOutRise => Sys2Proof.Machine.execPpsOutRise s
  | .ppsOutFall => Sys2Proof.Machine.execPpsOutFall s
  | .vddAonPowerOn => Sys2Proof.Machine.execVddAonPowerOn s
  | .vddAonPowerLoss => Sys2Proof.Machine.execVddAonPowerLoss s
  | .level2Expiry => Sys2Proof.Machine.execLevel2Expiry s
  | .railFaultRecordWritten => Sys2Proof.Machine.execRailFaultRecordWritten s
  | .chipStateReached => Sys2Proof.Machine.execChipStateReached s
  | .stbySaveDone => Sys2Proof.Machine.execStbySaveDone s
  | .pciePmWake => Sys2Proof.Machine.execPciePmWake s
  | .pldmSetStateEffecter => Sys2Proof.Machine.execPldmSetStateEffecter s
  | .chipWake => Sys2Proof.Machine.execChipWake s
  | .stbyRestoreDone => Sys2Proof.Machine.execStbyRestoreDone s
  | .perstNAssert => Sys2Proof.Machine.execPerstNAssert s
  | .perstNRelease => Sys2Proof.Machine.execPerstNRelease s
  | .pcieLinkTrainStart => Sys2Proof.Machine.execPcieLinkTrainStart s
  | .pcieLinkReset => Sys2Proof.Machine.execPcieLinkReset s
  | .warmReset => Sys2Proof.Machine.execWarmReset s
  | .coldReset => Sys2Proof.Machine.execColdReset s
  | .deviceReady => Sys2Proof.Machine.execDeviceReady s
  | .flashRelease => Sys2Proof.Machine.execFlashRelease s
  | .vfEnableClear => Sys2Proof.Machine.execVfEnableClear s
  | .fordPoll => Sys2Proof.Machine.execFordPoll s
  | .hifPtmMasterLoRead => Sys2Proof.Machine.execHifPtmMasterLoRead s
  | .hifLinkErrRead => Sys2Proof.Machine.execHifLinkErrRead s
  | .dbgLogData0Read => Sys2Proof.Machine.execDbgLogData0Read s
  | .dbgTraceData0Read => Sys2Proof.Machine.execDbgTraceData0Read s
  | .dbgMemDataLoRead => Sys2Proof.Machine.execDbgMemDataLoRead s
  | .latenessRecheck => Sys2Proof.Machine.execLatenessRecheck s
  | .windowStart => Sys2Proof.Machine.execWindowStart s
  | .retrainStart => Sys2Proof.Machine.execRetrainStart s
  | .heartbeatSend => Sys2Proof.Machine.execHeartbeatSend s
  | .composeFrame => Sys2Proof.Machine.execComposeFrame s
  | .entropyTestFail => Sys2Proof.Machine.execEntropyTestFail s
  | .debugChallengeLapse => Sys2Proof.Machine.execDebugChallengeLapse s
  | .fwVerifyDone => Sys2Proof.Machine.execFwVerifyDone s
  | .flashSectorProgrammed => Sys2Proof.Machine.execFlashSectorProgrammed s

end Sys2Proof.Machine
end

