-- ==== Sys2Proof/Machine/Tick.lean ====
section
/-! DEFINITION. Device time counts while no command is waiting (R23), at the slewed rate of R27. -/
namespace Sys2Proof.Machine

/-- The part of a slew that one nanosecond of counting removes: a whole nanosecond, and only when the gap since the last one
has passed. -/
def slewStep (slew : Int) (gap : Nat) : Int :=
  if slew = 0 || gap != 0 then 0 else if 0 < slew then 1 else -1

/-- The ticks that pass after a move before the next: 5,000 at least, which is 200 ppm (R27; log entry 12). -/
def slewGap (fresh : Nat) : Nat := max 5000 (Config.slewGap fresh)

/-- Device time after one nanosecond of the island clocks, modulo 2^64 (R23), with a pending correction
removed at the slew rate (R27). -/
def State.count1 (s : State) : State :=
  let d := slewStep s.time.slew s.time.gap
  let moved := d != 0
  { s with
    now := ((s.now : Int) + 1 + d).toNat % 2 ^ 64,
    time := { s.time with slew := s.time.slew - d,
                          gap := if moved then slewGap s.fresh - 1 else s.time.gap - 1 },
    fresh := if moved then s.fresh + 1 else s.fresh }

/-- One nanosecond of device time; LC jobs that wait and can no longer end in time leave as it passes (R11). -/
def tick (s : State) : State := finish s.count1 s.count1.dropWaiting

end Sys2Proof.Machine
end

