-- ==== Sys2Proof/Safety.lean ====
section
/-! DEFINITION. The terms that the statements about the block use: a Lolin command that reaches its effect, the rows of the always-on domain, the state FAULT_OFF, and the memory form that every command keeps. -/
namespace Sys2Proof.Machine
open Sys2Proof

/-- A Lolin command with opcode `op` reaches the check of its own row: the block is powered, the entry `t` was taken
under its REQ_ID, it is neither WAITING nor committed and is this row's, the CP interprets commands, its turn has come in its ring
and among the mailboxes, steps 2 to 5 of R151 find nothing, and no CP exception comes between its commit and its completion (R140,
R151, R153, R154, R158). -/
abbrev Accepted (op m : Nat) (c : Cmd) (s : State) (t : Taken) : Prop :=
  s.core = true ∧ c.cut = false ∧ s.taken ⟨m, c.reqId⟩ = some t ∧ s.notYet m c (entryOf c op) t = false ∧
  precheck s m (entryOf c op) = none

/-- Rows of the AON domain, of the pins that it watches, and of the Plains' temperature sensors, which have power while their core
rail has: they act in every power state. Every other row acts only while the domain it belongs to is powered. -/
def aonRow : Instr → Bool
  | .generatorLock _ | .refFreqEstimate _ | .ppsInEdge _ | .refLossDeclared _ | .refQualified | .relockComplete | .ppsLost
  | .ppsOutRise | .ppsOutFall | .railJudgedGood _ _ _ | .railOnTimeout _ | .railWindowFault _ _ _ | .railGlitch _ _ _
  | .railPgFault _ _ | .recurrenceWindowEnd _ | .railFallen _ _ | .railOffTimeout _ | .pmbAlert _ | .pmbusTelemetryPoll _ _
  | .pmbusVoutPoll _ _ _ | .pmbusSclTimeout _ | .vddAonPowerOn | .vddAonPowerLoss | .level2Expiry | .railFaultRecordWritten
  | .plainThermalSample _ _ | .plainThermalTrip _ _ | .pldmSensorRead _ | .chipStateReached | .pldmSetStateEffecter
  | .perstNAssert | .perstNRelease | .warmReset | .coldReset | .jtagInstruction _ => true
  | _ => false

/-- The rows that are COLD reset, or switch VDD_AON itself (R36, R75). -/
def coldRow : Instr → Bool
  | .vddAonPowerOn | .vddAonPowerLoss | .coldReset => true
  | _ => false

/-- The chip rests in FAULT_OFF: no sequence runs, no entry is under way and no rail is enabled (R48, R58). -/
def FaultedOff (s : State) : Prop :=
  s.power.chip = .faultOff ∧ s.sup.seq = .steady ∧ s.power.entry = none ∧ ∀ r ∈ s.rails, r.enabled = false

/-- A message that reaches this chip at port `p` and is not forwarded or discarded: the port is UP, a port toward another
Valley brings MGMT only, the message is for this chip (MGMT goes hop by hop), and its sender is not lost, or sends JOIN. -/
abbrev Delivered (p : Nat) (g : Msg) (s : State) : Prop :=
  s.core = true ∧ (s.port p).live = true ∧ ((s.port p).otherValley = false ∨ vcOf g.typ = 3) ∧
  (g.dst = s.chip ∨ vcOf g.typ = 3) ∧ (s.isLost g.src = false ∨ g.typ = mJoin)

/-- The state once the message has been taken from the port's buffer, where it stands at the front of it (log entry 24). -/
def State.taken1 (s : State) (p : Nat) (g : Msg) : State :=
  if s.front p (vcOf g.typ) = some g then s.updPort p fun x => x.eat (vcOf g.typ) (msgBytes g).length else s

/-- What a message did, `t`, and then the messages behind it that only pass through this chip, where it came from the
buffer. -/
def State.onward (s : State) (p : Nat) (g : Msg) (t : State) : State :=
  if s.front p (vcOf g.typ) = some g then t.transitAll p (vcOf g.typ) else t

end Sys2Proof.Machine
end

