-- ==== Sys2Proof/Certificates/Slice0/Obligations.lean ====
section
/-! DEFINITION. The statements about the block, for the provers: what every step keeps, what each row of the table does to the state, and what the shared operations promise. -/
open Sys2Proof Sys2Proof.Machine

/-- Structure (log entries 16, 17): with a command at the front of the queue, a step is exec of that command on the state
with the queue's rest. -/
def Obligations.StepRunsFrontCommand : Prop :=
  ∀ (c : Instr) (rest : List Instr) (s : State), step { s with pending := c :: rest } = exec c { s with pending := rest }

/-- R11, R23, R27 and log entry 17 (idling as the passing of device time is the model's choice): on an empty queue a step counts
device time, and LC jobs that wait and can no longer end in time leave; where no LC job waits, nothing else changes. With no
correction under way the count rises by exactly one nanosecond modulo 2^64. A correction moves it by one nanosecond more or less,
is used up by what it moved, and moves it only where 5,000 ticks at least have passed since it last did, which is 200 ppm. -/
def Obligations.EmptyQueueCountsDeviceTime : Prop :=
  (∀ s : State, s.pending = [] → step s = .next (finish s.count1 s.count1.dropWaiting)) ∧
  (∀ s : State, s.pending = [] → (∀ x ∈ s.streams, x.items = []) → step s = .next (finish s.count1 s.count1)) ∧
  (∀ s : State, s.time.slew = 0 →
    s.count1 = { s with now := (s.now + 1) % 2 ^ 64, time := { s.time with gap := s.time.gap - 1 } }) ∧
  (∀ s : State, ∃ d : Int, (d = 0 ∨ d = 1 ∨ d = -1) ∧ s.count1.now = ((s.now : Int) + 1 + d).toNat % 2 ^ 64 ∧
    s.count1.time.slew = s.time.slew - d ∧ s.count1.time.slew.natAbs ≤ s.time.slew.natAbs ∧
    (d ≠ 0 → s.time.gap = 0 ∧ 4999 ≤ s.count1.time.gap) ∧ (d = 0 → s.count1.time.gap = s.time.gap - 1))

/-- Every command of the table takes effect or leaves the state as it is: none faults and none is refused, and the
commands behind it stay in their order (log entry 16: what an unpowered unit does with a command is the model's choice). -/
def Obligations.NoCommandStopsTheBlock : Prop :=
  ∀ (c : Instr) (rest : List Instr) (s : State), s.pending = c :: rest → ∃ t, step s = .next t ∧ t.pending = rest

/-- R94, R242 with the model's list of bytes: the list of non-zero bytes by rising key is canonical, and every step from a
state in which it is canonical leaves it canonical. -/
def Obligations.MemoryStaysCanonical : Prop :=
  ∀ s t : State, s.mem.wf = true → step s = .next t → t.mem.wf = true

/-- R23, R47 and Table 5-1: what reset leaves. Device time is 0, the boot stands at RAILS, only VDD_IO18 is
enabled and its rise is the first of the power-up, power is not yet good, and neither a store nor a queue holds anything. -/
def Obligations.ResetLeaves : Prop :=
  State.reset.now = 0 ∧ State.reset.boot.stage = .rails ∧ State.reset.sup.powerGood = false ∧
  State.reset.sup.seq = .up [0] ∧ (State.reset.rail 0).enabled = true ∧
  (∀ ch, 0 < ch → (State.reset.rail ch).enabled = false) ∧ State.reset.mem.wf = true ∧ State.reset.mem.cells = [] ∧
  State.reset.pending = [] ∧ (∀ m, (State.reset.mb m).enable = false) ∧ (∀ p, (State.reset.part p).exist = false)

/-- R36, R70 and Table 3-6 (log entry 16: a command to an unpowered unit changes nothing): in neither
ACTIVE, QSC nor STBY, every row outside the AON domain leaves the whole state as it is. -/
def Obligations.UnpoweredDomainsDoNothing : Prop :=
  ∀ (i : Instr) (s : State), aonRow i = false → s.power.chip ≠ .active → s.power.chip ≠ .qsc → s.power.chip ≠ .stby →
    exec i s = .next s

/-- R58: a device in FAULT_OFF leaves it only by COLD. Whatever row comes, other than COLD and the rows that switch
VDD_AON, a chip that rests in FAULT_OFF rests there still. -/
def Obligations.FaultOffLeftOnlyByCold : Prop :=
  ∀ (i : Instr) (s t : State), coldRow i = false → FaultedOff s → s.sup.powerGood = false → exec i s = .next t →
    FaultedOff t ∧ t.sup.powerGood = false

/-- The end of a command: the bytes that its stores leave are the bytes that are read back once they are in the canonical
list, whatever the order and the ranges of the stores. -/
def Obligations.CommittedStoresReadBack : Prop :=
  ∀ (l : List Host.Cell) (ops : List MemOp) (k : Nat), cellsWf l = true →
    (cellAt (commitOps l ops) k).getD 0 = (opsAt ops k).getD ((cellAt l k).getD 0)

/-- Memory: a byte stored is the byte read, and every other byte reads as before, also where the granule lay under a
rotated key (R255) and its other bytes are free values. -/
def Obligations.StoreThenLoad : Prop :=
  (∀ (m : Memory) (k : Nat) (v : Byte), (m.put k v).get k = v) ∧
  (∀ (m : Memory) (k a : Nat) (v : Byte), a ≠ k → (m.put k v).get a = m.get a) ∧
  (∀ (m : Memory) (lo hi a : Nat), lo ≤ a → a < hi → (m.zero lo hi).get a = 0) ∧
  (∀ (m : Memory) (lo hi a : Nat), a < lo ∨ hi ≤ a → (m.zero lo hi).get a = m.get a)

/-! ### Mailboxes, the control processor and the host interface -/

/-- R73, R123, R138, R139, R453 (which READY ends the ignoring of doorbells is the model's choice, log entry 137): a host write to
MBX_SQ_TAIL, its TAIL in bits [11:0], is latched below the ring's entry count (and may wake a chip in QSC); one at or above it is ignored
and raises EV_MBX_VIOLATION. A write to MBX_CQ_HEAD or MBX_EQ_HEAD frees the slots consumed, and room in the event ring lets waiting
events in; one at or above the ring's entry count is ignored and raises EV_MBX_VIOLATION. ENABLE written 1 with sizes from 4 to 12
and a completion ring no smaller than the submission ring starts the mailbox with empty rings; with any other sizes it sets CFG_ERR,
and READY stays 0. ENABLE written 0 clears ENABLE and CFG_ERR. In STBY the keeper latches a tail written. A write that is not on the IDE stream
of a TDI in CONFIG_LOCKED or RUN is refused with Unsupported Request and does nothing else. -/
def Obligations.MailboxRegisterWrites : Prop :=
  (∀ (m : Nat) (v : BitVec 32) (ide : Bool) (s : State), s.core = true → s.mbxOpen m = true → s.offStream m ide = false →
    let i := bits v.toNat 0 12
    (i < ringSize (s.mb m).sqSize →
      exec (.mbxSqTailWrite m v ide) s = .next (finish s (s.updMb m fun b => { b with sqTail := i }).doorbellWake)) ∧
    (ringSize (s.mb m).sqSize ≤ i →
      exec (.mbxSqTailWrite m v ide) s = .next (finish s (s.emit [m] EV.mbxViolation 2))) ∧
    (i < ringSize (s.mb m).cqSize →
      exec (.mbxCqHeadWrite m v ide) s = .next (finish s (s.updMb m fun b => { b with
        cq := b.cq.drop ((i + ringSize (s.mb m).cqSize - b.cqHead) % ringSize (s.mb m).cqSize), cqHead := i }))) ∧
    (ringSize (s.mb m).cqSize ≤ i →
      exec (.mbxCqHeadWrite m v ide) s = .next (finish s (s.emit [m] EV.mbxViolation 2))) ∧
    (i < ringSize (s.mb m).eqSize →
      exec (.mbxEqHeadWrite m v ide) s = .next (finish s ((s.updMb m fun b => { b with
        eq := b.eq.drop ((i + ringSize (s.mb m).eqSize - b.eqHead) % ringSize (s.mb m).eqSize), eqHead := i }).flush
          m).destroyDue)) ∧
    (ringSize (s.mb m).eqSize ≤ i →
      exec (.mbxEqHeadWrite m v ide) s = .next (finish s (s.emit [m] EV.mbxViolation 2)))) ∧
  (∀ (m : Nat) (ide : Bool) (s : State), s.core = true → s.mbxOpen m = true → s.offStream m ide = false →
    ((s.mb m).enable = false → 4 ≤ (s.mb m).sqSize → (s.mb m).sqSize ≤ (s.mb m).cqSize → (s.mb m).cqSize ≤ 12 →
      4 ≤ (s.mb m).eqSize → (s.mb m).eqSize ≤ 12 →
      exec (.mbxEnable m ide) s = .next (finish s ((s.updMb m fun b => { b with
        enable := true, ready := true, sqHead := 0, cqHead := 0, eqHead := 0, cq := [], cqCount := 0, eq := [], eqCount := 0,
        lost := 0 }).flush m).destroyDue)) ∧
    ((s.mb m).enable = false → ((s.mb m).sqSize < 4 ∨ 12 < (s.mb m).sqSize ∨ (s.mb m).cqSize < 4 ∨ 12 < (s.mb m).cqSize ∨
      (s.mb m).eqSize < 4 ∨ 12 < (s.mb m).eqSize ∨ (s.mb m).cqSize < (s.mb m).sqSize) →
      exec (.mbxEnable m ide) s = .next (finish s (s.updMb m fun b =>
        { b with enable := true, ready := false, cfgErr := true, lost := 0 }))) ∧
    exec (.mbxDisable m ide) s = .next (finish s
      (s.updMb m fun b => ({ b with enable := false, cfgErr := false } : Mailbox).settle))) ∧
  (∀ (m : Nat) (v : BitVec 32) (ide : Bool) (s : State), s.core = false → s.keeper = true → s.suspended = true →
    s.offStream m ide = false → (s.fn m).enabled = true →
    exec (.mbxSqTailWrite m v ide) s = .next (finish s
      (s.updFn m fun x => { x with latch := x.latch.filter (·.1 != tailOff m) ++ [(tailOff m, v.toNat)] }).wake)) ∧
  (∀ (m : Nat) (i : Instr) (v : BitVec 32) (s : State), s.core = true → s.offStream m false = true →
    i ∈ [.mbxSqTailWrite m v false, .mbxCqHeadWrite m v false, .mbxEqHeadWrite m v false, .mbxEnable m false,
      .mbxDisable m false] →
    exec i s = .next (finish s (s.updFn m fun x => { x with urLogged := true })))

/-- R146, R147, R151, R154: an entry whose REQ_ID is new enters the journal with the stamp at which it was taken and the CMD
slot it holds, and MBX_SQ_HEAD moves past it. A retry of a completed command gets its recorded completion with DUP, and an ID
in use for another entry is answered ST_ID_CONFLICT; either leaves the journal as it is. The command whose turn it is in its ring
is answered where one of steps 2 to 5 fails, for an unknown OPCODE or a reserved bit of its header as for the rest, and then the
next; one that passes them stays for its own row. -/
def Obligations.EntryTaken : Prop :=
  (∀ (m : Nat) (e : Block) (s : State), s.core = true → (s.mb m).posted = true → s.admits m e = true → s.cmdPoison m e = false →
    let past (t : State) : State := t.updMb m fun b => { b with sqHead := (b.sqHead + 1) % ringSize b.sqSize }
    let kept : State := past (s.updMb m fun b =>
      { b with taken := b.taken ++ [{ entry := e, stamp := s.now, slot := s.cmdSlot m e }] })
    ((s.mb m).idCheck e = .new → s.cpUp = true → exec (.entryTake m e) s = .next (finish s (kept.refuseDue m))) ∧
    (∀ c, (s.mb m).idCheck e = .retryDone c →
      exec (.entryTake m e) s = .next (finish s ((past (s.writeCq m { c with dup := true } (eIrqOff e))).refuseDue m))) ∧
    ((s.mb m).idCheck e = .conflict → exec (.entryTake m e) s = .next (finish s
      ((past (s.writeCq m { reqId := eId e, status := ST.idConflict } (eIrqOff e))).refuseDue m)))) ∧
  (∀ (m : Nat) (s : State),
    (∀ t, (s.mb m).turn = some t → s.cpReads = true → t.done = none →
      (∀ st res, precheck s m t.entry = some (st, res) →
        s.refuseDue m = State.refuseN m ((s.mb m).taken.length - 1) (s.complete ⟨m, eId t.entry⟩ st res)) ∧
      (precheck s m t.entry = none → s.refuseDue m = s)) ∧
    ((s.mb m).turn = none ∨ s.cpReads = false → s.refuseDue m = s))

/-- R147: an ID is held from the moment its entry is taken. A retry of the same content is held too, and its DUP completion is
written immediately after the original's; an entry with a held ID and other content is answered ST_ID_CONFLICT at
once. -/
def Obligations.HeldIdAndItsRetries : Prop :=
  ∀ (s : State) (m : Nat) (e e' : Block) (slot slot' : Option (Nat × Nat)), m < s.mbx.length →
    (s.mb m).idCheck e = .new → eId e' = eId e →
    let t : State := s.take m e slot
    (sameEntry e e' = true →
      (t.mb m).idCheck e' = .retryHeld ∧ ((t.take m e' slot').mb m).cq = (s.mb m).cq ∧
      ∀ status result, ∃ c d, (((t.take m e' slot').complete ⟨m, eId e⟩ status result).mb m).cq = (s.mb m).cq ++ [c, d] ∧
        c.reqId = eId e ∧ c.status = status ∧ c.result = result % 2 ^ 64 ∧ c.dup = false ∧
        d.reqId = eId e ∧ d.status = status ∧ d.result = result % 2 ^ 64 ∧ d.dup = true) ∧
    (sameEntry e e' = false →
      (t.mb m).idCheck e' = .conflict ∧
      ∃ c, ((t.take m e' slot').mb m).cq = (s.mb m).cq ++ [c] ∧ c.reqId = eId e ∧ c.status = ST.idConflict)

/-- R148: every completion is recorded except those in the BUSY class and ST_ID_CONFLICT. A retry of a command that was
recorded, one refused with ST_INVALID_ARG for instance, is answered with the recorded completion and DUP; after a
completion that is not recorded the ID is free, and a retry is new. -/
def Obligations.CompletedCommandIsRemembered : Prop :=
  (recorded ST.invalidArg = true ∧ ∀ status, recorded status = true ↔ status / 256 ≠ 1 ∧ status ≠ ST.idConflict) ∧
  ∀ (s : State) (r : Req) (t : Taken) (status result : Nat), s.taken r = some t → t.deferred = false →
    let u : State := s.complete r status result
    (recorded status = true → ∃ c, (u.mb r.m).idCheck t.entry = .retryDone c ∧
      c.reqId = r.id ∧ c.status = status ∧ c.result = result % 2 ^ 64 ∧
      ∀ slot, u.take r.m t.entry slot = u.writeCq r.m { c with dup := true } (eIrqOff t.entry)) ∧
    (recorded status = false → (s.mb r.m).window.find? (fun w => eId w.entry == r.id) = none →
      (u.mb r.m).idCheck t.entry = .new)

/-- R455, R158, R156, R159: the coalescing time of a vector that is due signals it; a working CP beats once a millisecond;
an exception, or 500 ms without a beat, starts a CP restart; and the restart ends with the CP up again, what the journal holds as
committed completed and what it holds as taken answered where it is refused. -/
def Obligations.ProcessorAndCoalescingRows : Prop :=
  (∀ m s, s.core = true → (s.fn m).coalCq.due s.now = true →
    exec (.evtCoalTimer m 0) s = .next (finish s (s.updFn m fun x =>
      if x.coalCq.due s.now then { x with coalCq := { x.coalCq with since := 0 } }.fire 0 else x))) ∧
  (∀ m s, s.core = true → (s.fn m).coalEq.due s.now = true →
    exec (.evtCoalTimer m 1) s = .next (finish s (s.updFn m fun x =>
      if x.coalEq.due s.now then { x with coalEq := { x.coalEq with since := 0 } }.fire 1 else x))) ∧
  (∀ s : State, s.core = true → s.cpUp = true → s.halts ≠ 15 → s.cp.lastBeat + 1000000 ≤ s.now →
    exec .cpHeartbeatTick s = .next (finish s
      { s with cp := { s.cp with beat := (s.cp.beat + 1) % 2 ^ 32, lastBeat := s.now } })) ∧
  (∀ s : State, s.core = true → s.cpUp = true → exec .cpException s = .next (finish s s.cpr)) ∧
  (∀ s : State, s.core = true → s.cpUp = true → s.halts = 0 → s.cp.lastBeat + 500000000 ≤ s.now →
    exec .cpWatchdogExpiry s = .next (finish s s.cpr)) ∧
  (∀ s : State, s.core = true → s.bar0Valid = true → s.cp.up = false → s.cp.failed = false →
    let u : State := State.deliverDone { s with cp := { s.cp with up := true, lastBeat := s.now } }
    exec .cpRestartDone s = .next (finish s ((List.range 33).foldl State.refuseDue u).advance))

/-- R81, R110, R113, R114, R121, R123, R456: the link trains and comes up with its width and rate, 64 GT/s in FLIT mode only; SR-IOV VFs appear and go; BAR2 takes a new
size, and windows that no longer fit are withdrawn; a masked vector's pending message is sent when it is unmasked, unless
TDISP refuses the write; a PTM dialogue leaves its stamps. -/
def Obligations.HostLinkRows : Prop :=
  (∀ s : State, s.core = true → s.power.perstLow = none → s.hif.up = false → s.power.perstRise + 20000000 ≤ s.now →
    exec .pcieLinkTrainStart s = .next (finish s { s with hif := { s.hif with training := true } })) ∧
  (∀ (s : State) (width rate : Nat) (flit : Bool), s.core = true → (s.hif.training = true ∨ s.hif.up = true) →
    width ∈ [1, 2, 4, 8, 16] → 1 ≤ rate → rate ≤ 4 → (rate = 4 → flit = true) →
    exec (.pcieLinkTrained width rate flit) s = .next (finish s { s with hif := { s.hif with
      up := true, training := false, width := width, rate := rate, flit := flit, pm := 0,
      recoveries := if s.hif.up then sat 16 (s.hif.recoveries + 1) else s.hif.recoveries } })) ∧
  (∀ (s : State) (n : Nat) (ari : Bool), s.core = true → n ≤ 32 → s.hif.numVfs = 0 →
    exec (.vfEnableSet n ari) s = .next (finish s { s with
      hif := { s.hif with numVfs := n, ari := ari },
      fns := s.fns.mapIdx fun i (x : Fn) =>
        (if i ≠ 0 ∧ i ≤ (if ari then n else min n 7) then { x with enabled := true } else x) })) ∧
  (∀ s : State, s.core = true → exec .vfEnableClear s = .next (finish s
    (let t := (List.range 32).foldl (fun s p => if (s.fn (p + 1)).enabled then s.partReset p else s) s
     { t with hif := { t.hif with numVfs := 0 },
              fns := t.fns.mapIdx fun i (x : Fn) => (if i = 0 then x else { x with enabled := false }) }))) ∧
  (∀ (s : State) (m shift : Nat), s.core = true → 30 ≤ shift → shift ≤ 38 → m ≤ 32 →
    exec (.bar2Resize m shift) s = .next (finish s
      ((if m = 0 then [0] else (List.range 32).map (· + 1)).foldl (fun s f =>
        (List.range 64).foldl (fun s w =>
          if (s.window f w).mapped && decide (2 ^ shift < (s.window f w).off + (s.window f w).len) then
            (s.forceUnmap f w).emit [f] EV.fordUnmapped 2 (hWindow w) (pay [(0, w)])
          else s) (s.updFn f fun x => { x with bar2 := shift })) s))) ∧
  (∀ (s : State) (m vector : Nat) (ide : Bool), s.core = true →
    (s.offStream m ide = false → exec (.msixUnmask m vector ide) s = .next (finish s
      (s.updFn m fun x => { x with vecs := updAt x.vecs vector Vec.unmask }))) ∧
    (s.offStream m ide = true → exec (.msixUnmask m vector ide) s = .next (finish s
      (s.updFn m fun x => { x with urLogged := true })))) ∧
  (∀ (s : State) (master : Nat), s.core = true → s.hif.up = true →
    exec (.ptmDialogue master) s = .next (finish s { s with hif := { s.hif with
      ptmMaster := master % 2 ^ 64, ptmDevice := s.now, ptmCount := (s.hif.ptmCount + 1) % 65536, ptmValid := true } }))

/-- R79, R110 to R112, R114, R118, R122, R123, R233, R417 (what stands in which register of configuration space is that of PCI Express,
log entry 153; what a reset does of a VF without a partition is the model's reading, log entry 157): a function-level reset of an
enabled VF returns its configuration and its MSI-X table, clears READY, drops the keys of a locked TDI and resets the partition;
LOCK, START and STOP_INTERFACE move a TDI between its states; IDE key management programs, starts and stops a stream with at most two
key sets; a configuration request reads or writes its register, and one that Table 6-4 forbids to a locked TDI puts it into
ERROR. -/
def Obligations.TrustedInterfaceRows : Prop :=
  (∀ (s : State) (n : Nat), s.core = true → n ≠ 0 → (s.fn n).enabled = true →
    let keys : State := if (s.fn n).tdi = 0 then s else s.updFn n fun x => { x with ideKeys := [], ideUp := false }
    let lost : State := (keys.resetMaster 3 n).updFn n fun x =>
      { x with vecs := List.replicate 32 {}, dstate := 0, urLogged := false }
    ((s.part (n - 1)).exist = true →
      exec (.vfFlr n) s = .next (finish s (((lost.updMb n fun b => { b with ready := false }).updPart (n - 1) fun p =>
        { p with stopTdi := p.stopTdi || (s.fn n).tdi != 0 }).partReset (n - 1)))) ∧
    ((s.part (n - 1)).exist = false →
      exec (.vfFlr n) s = .next (finish s ((lost.updMb n fun _ => {}).updFn n fun x => { x.lose n with tdi := 0 })))) ∧
  (∀ (s : State) (f : Nat) (key : BitVec 256), s.solram = true →
    exec (.ideKmKeyProg f key) s = .next (finish s (s.updFn f fun x => { x with ideKeys := (key :: x.ideKeys).take 2 })) ∧
    exec (.ideKmKeySetGo f) s = .next (finish s (s.updFn f fun x =>
      if x.ideKeys.isEmpty then x else { x with ideUp := true })) ∧
    exec (.ideKmKeySetStop f) s = .next (finish s (s.updFn f fun x => { x with ideKeys := [], ideUp := false }))) ∧
  (∀ (s : State) (n : Nat), s.solram = true → 1 ≤ n → n ≤ 32 → (s.fn n).tdi = 0 → (s.part (n - 1)).exist = true →
    (s.part (n - 1)).cfg.confidential = true → (s.fn n).ideUp = true →
    exec (.lockInterface n) s = .next (finish s { s.updFn n (fun x => { x with tdi := 1 }) with readData := 0 })) ∧
  (∀ (s : State) (n : Nat), s.solram = true → (s.fn n).tdi = 1 →
    exec (.startInterface n) s = .next (finish s { s.updFn n (fun x => { x with tdi := 2 }) with readData := 0 })) ∧
  (∀ (s : State) (n : Nat), s.solram = true → 1 ≤ n → n ≤ 32 → (s.part (n - 1)).exist = true →
    exec (.stopInterface n) s = .next (finish s ((({ s with readData := 0 }.updFn n fun x => { x with stopping := true }).updPart
      (n - 1) fun p => { p with stopTdi := true }).partReset (n - 1)))) ∧
  (∀ (s : State) (n : Nat), s.solram = true → 1 ≤ n → n ≤ 32 → (s.part (n - 1)).exist = false →
    exec (.stopInterface n) s = .next (finish s ({ s with readData := 0 }.updFn n fun x => { x with tdi := 0 }))) ∧
  (∀ (s : State) (m : Nat) (reg : CfgReg) (w : BitVec 32), s.keeper = true → s.hif.up = true → s.bar0Valid = true →
    (s.fn m).enabled = true →
    exec (.configurationRequest m reg none false) s = .next (finish s { s with readData := s.cfgRead m reg }) ∧
    exec (.configurationRequest m reg (some w) false) s = .next (finish s { s.cfgWrite m reg w.toNat with readData := 0 }) ∧
    exec (.configurationRequest m reg (some w) true) s = .next (finish s (State.updFn
      { s.cfgWrite m reg w.toNat with readData := 0 } m fun x => if x.tdi = 1 || x.tdi = 2 then { x with tdi := 3 } else x))) ∧
  (∀ (s : State) (n : Nat), s.cfgRead 0 .vendorId = 0x1FC7 ∧ s.cfgRead 0 .deviceId = 0x0760 ∧ s.cfgRead 0 .flrCapable = 0 ∧
    s.cfgRead (n + 1) .vendorId = 0xFFFF ∧ s.cfgRead (n + 1) .flrCapable = 1)

/-! ### Clocks, time, rails and power -/

/-- R14, R15, R16, R54, R55, R67 (which voltage a Plain needs at a frequency is a free value, log entry 130; the values of the last samples
are, log entry 35): the CP sets a frequency target within the cap and the thermal limit, a raise waiting until the quadrant's rail has
settled at the voltage for it; an AVS write moves a rail's target, at or above what the quadrant needs; its settling ends in a reading
at most 10 mV off, and a rail that has not settled within 100 µs is at fault once; a locked generator steps 12.5 MHz at a time
toward the lower of target and limit, 250 ns apart at least. -/
def Obligations.FrequencyAndVoltageRows : Prop :=
  (∀ (s : State) (p code : Nat), s.core = true → s.cpUp = true → (s.plain p).state ≠ .off → code ≤ 104 →
    code ≤ s.prof.freqCap.getD p 0 → code ≤ (s.plain p).limit →
    (((s.plain p).current < code → s.serves p code = true) →
      exec (.cpFreqTargetSet p code) s = .next (finish s (s.updPlain p fun x => { x with target := code, waiting := none }))) ∧
    ((s.plain p).current < code → s.serves p code = false →
      exec (.cpFreqTargetSet p code) s = .next (finish s (s.updPlain p fun x => { x with waiting := some code })))) ∧
  (∀ (s : State) (q steps : Nat), s.core = true → q < 4 → s.cpUp = true → s.power.chip = .active → (s.rail (3 + q)).enabled = true →
    (s.rail (3 + q)).cfg.avs = true →
    (s.voltageFloor q ≤ steps → steps ≤ 340 → exec (.avsVoltageWrite q steps) s = .next (finish s (s.updRail (3 + q) fun r =>
      { r with moving := some (r.moving.getD r.target), target := steps, movedAt := s.now, settleFault := false }))) ∧
    (steps < s.voltageFloor q ∨ 340 < steps → exec (.avsVoltageWrite q steps) s = .next (finish s s))) ∧
  (∀ (s : State) (q : Nat), 272 ≤ s.voltageFloor q) ∧
  (∀ (s : State) (q : Nat), s.core = true → q < 4 → (s.rail (3 + q)).moving.isSome = true →
    (s.rail (3 + q)).movedAt + 1000 ≤ s.now →
    exec (.avsSettled q) s = .next (finish s ((({ s with fresh := s.fresh + 1 }.updRail (3 + q) fun r =>
      { r with moving := none, settleFault := false,
               reading := r.target * 2 - 8 + Config.freshBits s.fresh % 17 }).startRaises q).qscEnds))) ∧
  (∀ (s : State) (q : Nat), s.core = true → q < 4 → (s.rail (3 + q)).moving.isSome = true → (s.rail (3 + q)).settleFault = false →
    (s.rail (3 + q)).movedAt + 100000 ≤ s.now →
    exec (.avsSettleTimeout q) s = .next (finish s
      ((s.updRail (3 + q) fun r => { r with settleFault := true }).railFaulted (3 + q) 3 (s.rail (3 + q)).reading))) ∧
  (∀ (s : State) (p : Nat), s.core = true → exec (.plainFreqStep p) s = .next (finish s (s.updPlain p fun x =>
    if x.locked = true ∧ (∀ t ∈ x.stepAt, t + 250 ≤ s.now) ∧ x.current < min x.target x.limit then
      { x with current := x.current + 1, stepAt := some s.now }
    else if x.locked = true ∧ (∀ t ∈ x.stepAt, t + 250 ≤ s.now) ∧ min x.target x.limit < x.current then
      { x with current := x.current - 1, stepAt := some s.now }
    else x))) ∧
  (∀ (s : State) (p : Nat), s.aon = true → (s.rail 1).state = .good → (s.rail (3 + quadOf p)).enabled = true →
    exec (.generatorLock p) s = .next (finish s (s.updPlain p fun x => { x with locked := true })))

/-- R18, R19, R21: estimates of the reference come 10 µs apart; one more than 500 ppm off (10 steps of 50 ppm) counts towards its
loss, which the tenth in a row declares, and one inside returns the count to 0; so does a gap of 2 µs without an edge. A declared loss
starts holdover with EV_REF_LOST and its alert bit, once; 1 ms of good estimates qualifies the reference, and relock ends holdover
with EV_REF_RESTORED. -/
def Obligations.ReferenceRows : Prop :=
  (∀ (s : State) (e : Int), s.aon = true → (∀ t ∈ s.clk.estAt, t + 10000 ≤ s.now) →
    let u : State := { s with clk :=
      { s.clk with offset := e * 50, estAt := some s.now, outside := s.clk.outside + 1, goodSince := none } }
    ((e < -10 ∨ 10 < e) → s.clk.outside < 9 → exec (.refFreqEstimate e) s = .next (finish s u)) ∧
    ((e < -10 ∨ 10 < e) → 9 ≤ s.clk.outside → exec (.refFreqEstimate e) s = .next (finish s u.refLoss)) ∧
    (-10 ≤ e → e ≤ 10 → exec (.refFreqEstimate e) s = .next (finish s { s with clk := { s.clk with
      offset := e * 50, estAt := some s.now, outside := 0, lost := false, goodSince := some (s.clk.goodSince.getD s.now) } }))) ∧
  (∀ (s : State) (gap : Nat), s.aon = true →
    (2000 ≤ gap → exec (.refLossDeclared gap) s = .next (finish s s.refLoss)) ∧
    (gap < 2000 → exec (.refLossDeclared gap) s = .next (finish s s))) ∧
  (∀ s : State, s.refLoss = if s.clk.lost then s else ({ s with clk := { s.clk with
    holdover := true, lost := true, qualified := false, goodSince := none, outside := 0,
    lossCount := sat 16 (s.clk.lossCount + 1) } }.emit [0] EV.refLost 0).alertBit 5) ∧
  (∀ (s : State) (t : Nat), s.aon = true → s.clk.holdover = true → s.clk.lost = false → s.clk.goodSince = some t →
    t + 1000000 ≤ s.now → exec .refQualified s = .next (finish s { s with clk := { s.clk with qualified := true } })) ∧
  (∀ s : State, s.aon = true → s.clk.holdover = true → s.clk.qualified = true → s.clk.lost = false →
    exec .relockComplete s = .next (finish s ({ s with clk := { s.clk with holdover := false } }.emit [0] EV.refRestored 0)))

/-- R27, R28, R29, R30, R31: a PPS edge is stamped with the time at which it came; in mode 2 the offset to the
nearest second is slewed, in mode 3 time steps to TIME_PPS_NEXT unless that would turn it back with streams open; 1.5 s
without an edge is PPS_LOST, and a load of device time counts neither for it nor for the output; the output rises within 10 ns of
each second and falls no sooner than 100 µs later. -/
def Obligations.PulsePerSecondRows : Prop :=
  (∀ (s : State) (rising : Bool), s.aon = true → rising ≠ s.time.edge →
    let t : State := { s with time := { s.time with stamp := s.now, ppsSeen := true, ppsLost := false, lastEdge := s.now } }
    let mode := if s.timeRoot = s.chip then s.time.mode else min s.time.mode 1
    (mode ≠ 2 → mode ≠ 3 → exec (.ppsInEdge rising) s = .next (finish s t)) ∧
    (mode = 2 → exec (.ppsInEdge rising) s = .next (finish s (t.slewBy (toSecond s.now)))) ∧
    (mode = 3 → s.time.next < s.now → s.streams ≠ [] → exec (.ppsInEdge rising) s = .next (finish s
      { t with time := { t.time with mode := 2, slew := (s.time.next : Int) - s.now } })) ∧
    (mode = 3 → (s.now ≤ s.time.next ∨ s.streams = []) → s.time.next < 2 ^ 64 → exec (.ppsInEdge rising) s = .next (finish s
      { t with now := s.time.next,
               time := { t.time with mode := 2, stamp := s.time.next, lastEdge := s.time.next, stepDone := true, slew := 0,
                                     ppsRise := s.time.ppsRise + ((s.time.next : Int) - s.now) } }))) ∧
  (∀ s : State, s.aon = true → s.time.mode ≠ 0 → s.time.ppsLost = false → s.time.lastEdge + 1500000000 ≤ s.now →
    exec .ppsLost s = .next (finish s
      (({ s with time := { s.time with ppsLost := true } }.emit [0] EV.ppsLost 0).alertBit 6))) ∧
  (∀ s : State, s.aon = true → s.time.outEn = true → s.time.ppsOut = false →
    (s.now % 1000000000 ≤ 10 ∨ 999999990 ≤ s.now % 1000000000) →
    exec .ppsOutRise s = .next (finish s { s with time := { s.time with ppsOut := true, ppsRise := s.now } })) ∧
  (∀ s : State, s.aon = true → s.time.ppsOut = true →
    (s.time.ppsRise + 100000 ≤ s.now →
      exec .ppsOutFall s = .next (finish s { s with time := { s.time with ppsOut := false } })) ∧
    (s.now < s.time.ppsRise + 100000 → exec .ppsOutFall s = .next (finish s s)))

/-- R46, R47, R48, R49, R51, R106 (a timed-out entry to STBY lowers the sequence's own rails, log entry 132): a ramping rail judged
good for 100 µs lets the next enable rise, the last one makes power good, and VDD_IO18 opens the flash and the regulators;
a rail not good within ON_TIMEOUT starts the power-down; on the way down each rail that has fallen lets the next
enable fall, one that does not fall within 50 ms lets all fall; RAIL_EN[0] waits for the rail-fault record. -/
def Obligations.RailSequenceRows : Prop :=
  (∀ (s : State) (ch : Nat) (pins : BitVec 2) (regs : List RegConf) (rest : List Nat), s.aon = true → s.sup.seq = .up (ch :: rest) →
    (s.rail ch).enabled = true → (s.rail ch).state = .ramping → (s.rail ch).enabledAt + 100000 ≤ s.now → ch ≠ 0 →
    let t : State := (s.updRail ch fun r => { r with state := .good, judgedFrom := s.now }).sampled ch
    exec (.railJudgedGood ch pins regs) s = .next (finish s (match rest with
      | d :: _ => State.railOn { t with sup := { t.sup with seq := .up rest } } d
      | [] => State.powerUpEnd { t with sup := { t.sup with seq := .up [] } }))) ∧
  (∀ (s : State) (pins : BitVec 2) (regs : List RegConf) (rest : List Nat), s.aon = true → s.sup.seq = .up (0 :: rest) →
    (s.rail 0).enabled = true → (s.rail 0).state = .ramping → (s.rail 0).enabledAt + 100000 ≤ s.now → s.boot.stage = .rails →
    s.sup.powerGood = false →
    let good : State := (s.updRail 0 fun r => { r with state := .good, judgedFrom := s.now }).sampled 0
    let t : State := (good.selectProfile pins.toNat).applyRails.configureRegs regs
    exec (.railJudgedGood 0 pins regs) s = .next (finish s (match t.upList with
      | d :: _ => State.railOn { t with logs := { t.logs with boot := t.bootNumber }, sup := { t.sup with seq := .up t.upList } } d
      | [] => State.powerUpEnd
        { t with logs := { t.logs with boot := t.bootNumber }, sup := { t.sup with seq := .up t.upList } }))) ∧
  (∀ (s : State) (ch : Nat) (rest : List Nat), s.aon = true → s.sup.seq = .up (ch :: rest) → (s.rail ch).enabled = true →
    (s.rail ch).state = .ramping → (s.rail ch).enabledAt + (s.rail ch).cfg.onTimeout * 1000000 ≤ s.now →
    exec (.railOnTimeout ch) s = .next (finish s ((s.logOnly EV.seqOnTimeout 1 (pay [(0, ch)])).faultDown
      { channel := ch, cause := 5, level := 3, reading := (s.rail ch).reading, stamp := s.now }))) ∧
  (∀ (s : State) (ch reading : Nat), s.aon = true → s.falling ch = true →
    ((s.rail ch).cfg.window = true → reading * 2 < min (s.rail ch).cfg.setpoint 320 →
      exec (.railFallen ch reading) s = .next (finish s s.seqNext)) ∧
    ((s.rail ch).cfg.window = true → min (s.rail ch).cfg.setpoint 320 ≤ reading * 2 →
      exec (.railFallen ch reading) s = .next (finish s s)) ∧
    ((s.rail ch).cfg.window = false → (s.rail ch).cfg.pmbAddr = 0 →
      (s.rail ch).enabledAt + (s.rail ch).cfg.offWait * 1000000 ≤ s.now →
      exec (.railFallen ch reading) s = .next (finish s s.seqNext))) ∧
  (∀ (s : State) (ch mv : Nat), s.aon = true → s.falling ch = true → (s.rail ch).cfg.window = false → (s.rail ch).cfg.pmbAddr ≠ 0 →
    (∀ t ∈ (s.rail ch).voutAt, t + 1000000 ≤ s.now) →
    let u : State := (s.onBus (s.pmbCmd ch 0x8B mv)).updRail ch fun r => { r with voutAt := some s.now }
    exec (.pmbusVoutPoll ch mv false) s = .next (finish s (u.pmbFail ch)) ∧
    (mv * 8 < min ((s.rail ch).cfg.setpoint * 5) 1600 → exec (.pmbusVoutPoll ch mv true) s =
      .next (finish s (u.updRail ch fun r => { r with tried := false }).seqNext)) ∧
    (min ((s.rail ch).cfg.setpoint * 5) 1600 ≤ mv * 8 → exec (.pmbusVoutPoll ch mv true) s =
      .next (finish s (u.updRail ch fun r => { r with tried := false })))) ∧
  (∀ (s : State) (ch : Nat) (l : List Nat) (goal : Chip), s.aon = true → s.sup.seq = .down l goal → s.falling ch = true →
    (s.rail ch).enabledAt + 50000000 ≤ s.now →
    let t : State := (s.logOnly EV.seqOffTimeout 1 (pay [(0, ch)])).fault
    let u : State := l.foldl (fun s c => if (s.rail c).enabled then s.railOff c else s) (if t.sup.recordDue then t.writeRecord else t)
    let v : State := { u with sup := { u.sup with seq := .down [] goal } }
    exec (.railOffTimeout ch) s = .next (finish s (if goal = .faultOff then v.seqEnd goal else v))) ∧
  (∀ (s : State) (c : Nat) (l : List Nat) (goal : Chip), s.aon = true → s.sup.seq = .down (c :: l) goal → s.sup.recordDue = true →
    exec .railFaultRecordWritten s = .next (finish s
      (if c = 0 ∧ (s.writeRecord.rail 0).enabled = true then s.writeRecord.railOff 0 else s.writeRecord)))

/-- R36, R39, R40, R41, R51, R52, R53, R56, R57, R466 (an excursion counts from the stamp at which judging began, log entry 133): samples
outside the window of a judged rail, 10 ns apart, that reach its filter time fault it, and fewer are a glitch; so does a power-good
that is low for the filter time on a power-good-only rail; VDD_AON out of 0.76 to 0.84 V for 1.0 µs is level 3; a recurrence window
that ends with one fault clears it; level 2 becomes level 3 after 10 ms; PMBus reads and time-outs act on their regulator's rail. -/
def Obligations.RailFaultRows : Prop :=
  (∀ (s : State) (reading samples : Nat), s.aon = true →
    (reading < 608 → 100 ≤ samples → exec (.railWindowFault 254 reading samples) s = .next (finish s
      (s.faultDown { channel := 254, cause := 0, level := 3, reading := reading, stamp := s.now }))) ∧
    (672 < reading → 100 ≤ samples → exec (.railWindowFault 254 reading samples) s = .next (finish s
      (s.faultDown { channel := 254, cause := 1, level := 3, reading := reading, stamp := s.now }))) ∧
    ((608 ≤ reading ∧ reading ≤ 672 ∨ samples < 100) → exec (.railWindowFault 254 reading samples) s = .next (finish s s))) ∧
  (∀ (s : State) (ch reading samples : Nat) (high : Bool), s.aon = true → ch ≠ 254 → s.judged ch = true →
    (s.rail ch).cfg.window = true → outside (s.rail ch).low (s.rail ch).high reading = some high →
    let ns := s.judgedNs ch (samples * 10)
    let seen : State := s.updRail ch fun r => { r with excFirst := s.now - (ns - 10), excLast := s.now }
    (((s.rail ch).cfg.filter + 1) * 100 ≤ ns →
      exec (.railWindowFault ch reading samples) s = .next (finish s (seen.railFaulted ch (b2n high) reading))) ∧
    (ns < ((s.rail ch).cfg.filter + 1) * 100 → exec (.railWindowFault ch reading samples) s = .next (finish s s)) ∧
    (10 ≤ ns → ns < ((s.rail ch).cfg.filter + 1) * 100 → exec (.railGlitch ch reading samples) s = .next (finish s
      (s.updRail ch fun r => { r with excFirst := s.now - (ns - 10), excLast := s.now,
                                      glitches := sat 16 (r.glitches + 1), reading := reading })))) ∧
  (∀ (low high reading : Nat), low ≤ high → (outside low high reading = none ↔ low ≤ reading ∧ reading ≤ high)) ∧
  (∀ (s : State) (ch low : Nat), s.aon = true → s.judged ch = true → (s.rail ch).cfg.window = false →
    (((s.rail ch).cfg.filter + 1) * 100 ≤ s.judgedNs ch low →
      exec (.railPgFault ch low) s = .next (finish s (s.railFaulted ch 0 0))) ∧
    (s.judgedNs ch low < ((s.rail ch).cfg.filter + 1) * 100 → exec (.railPgFault ch low) s = .next (finish s s))) ∧
  (∀ (s : State) (ch w : Nat), s.aon = true → (s.rail ch).windowFrom = some w → w + 100000000 ≤ s.now → (s.rail ch).runFaults ≤ 1 →
    (s.rail ch).level ≤ 1 →
    let t : State := s.updRail ch fun r => { r with
      windowFrom := none, throttle := false, runFaults := 0, level := 0,
      state := if r.enabled && r.state == .fault then .good else r.state }
    let old := (s.logs.transient.find? (fun x => x.1 == 0 && x.2.1 == ch)).elim 0 (·.2.2)
    exec (.recurrenceWindowEnd ch) s = .next (finish s { t with logs := { t.logs with
      transient := (0, ch, old + 1) :: t.logs.transient.filter (fun x => !(x.1 == 0 && x.2.1 == ch)) } })) ∧
  (∀ (s : State) (t : Nat), s.aon = true → s.sup.level2At = some t → t + 10000000 ≤ s.now → exec .level2Expiry s = .next (finish s
    (s.faultDown (s.sup.record.getD { channel := 255, cause := 0, level := 3, stamp := t })))) ∧
  (∀ (s : State) (ws : List RegStatus), s.judged 0 = true → (∀ w ∈ ws, w.channel < 16 ∧ (s.rail w.channel).cfg.pmbAddr ≠ 0) →
    exec (.pmbAlert ws) s = .next (finish s (ws.foldl State.statusWord (s.onBus (ws.flatMap s.statusTrans))))) ∧
  (∀ (s : State) (w : RegStatus) (values : List Nat), s.judged 0 = true → w.channel < 16 → (s.rail w.channel).cfg.pmbAddr ≠ 0 →
    (∀ t ∈ (s.rail w.channel).polledAt, t + 10000000 ≤ s.now) →
    let u : State := ((s.onBus (s.pollTrans w values)).updRail w.channel fun r => { r with polledAt := some s.now }).statusWord w
    exec (.pmbusTelemetryPoll w values) s = .next (finish s (if w.acked = true then
      u.updRail w.channel fun r => { r with stale := false, telemetry := values.take 5 } else u))) ∧
  (∀ (s : State) (ch : Nat), s.judged 0 = true → (s.rail ch).cfg.pmbAddr ≠ 0 →
    exec (.pmbusSclTimeout ch) s = .next (finish s (if (s.rail ch).tried = true then
      (((s.updRail ch fun r => { r with tried := false, stale := true }).emit [0] EV.pmbusFault 0 0 (pay [(0, ch)])).alertBit 2)
      else s.updRail ch fun r => { r with tried := true })))

/-- R60, R61, R62, R165: a running Plain with nothing to do is IDLE; after RET_DELAY in IDLE it enters RET; its exit from RET brings it to
RUN, with the writes and requests that it held served; a Plain that no partition owns is powered OFF with its stores cleared; a
Plain powered up for a partition is in RUN with its stores cleared. -/
def Obligations.PlainStateRows : Prop :=
  (∀ (s : State) (p : Nat), s.core = true → (s.plain p).state = .run → s.plainBusy p = false →
    exec (.plainIdle p) s = .next (finish s (s.updPlain p fun x => { x with state := .idle, since := s.now }))) ∧
  (∀ (s : State) (p : Nat), s.core = true → (s.plain p).state = .idle → s.prof.retEn = true →
    (s.plain p).since + s.prof.retDelay * 10000 ≤ s.now → s.plainBusy p = false →
    exec (.plainRetEntry p) s = .next (finish s
      (s.updPlain p fun x => { x with state := .ret, since := s.now, exiting := false }))) ∧
  (∀ (s : State) (p : Nat), s.core = true → (s.plain p).state = .ret → (s.plain p).exiting = true →
    let u : State := (s.plain p).held.foldl (fun s g => if s.valley.heldReqs.any (fun h => h.1 == g) then s.memReq g else s)
      ((s.plain p).heldWrites.foldl (fun s g => s.hostStore g.master g.addr g.data g.ep)
        (s.updPlain p fun y => { y with state := .run, since := s.now, exiting := false, held := [], heldWrites := [] }))
    let t : State := u.dbgServe p
    exec (.plainRetExitDone p) s = .next (finish s
      ((([2 * p, 2 * p + 1].filterMap (halfOwner t)).foldl State.createReady t).advance))) ∧
  (∀ (s : State) (p : Nat), s.core = true → s.cpUp = true → p < 16 → (s.plain p).state ≠ .off → s.plainOwned p = false →
    exec (.plainOff p) s = .next (finish s
      ((s.zeroHalves [2 * p, 2 * p + 1]).updPlain p fun x => { x with
        state := .off, since := (s.zeroHalves [2 * p, 2 * p + 1]).now, exiting := false, waiting := none,
        target := min 76 ((s.zeroHalves [2 * p, 2 * p + 1]).prof.freqCap.getD p 0) }))) ∧
  (∀ (s : State) (p : Nat), s.core = true → (s.plain p).state = .off → s.plainOwned p = true →
    let t : State := (s.zeroHalves [2 * p, 2 * p + 1]).updPlain p fun x => { x with state := .run, since := s.now }
    exec (.plainPowerUpDone p) s = .next (finish s (([2 * p, 2 * p + 1].filterMap (halfOwner t)).foldl State.createReady t)))

/-- R66, R67, R68, R69 (a limit that no longer binds reads 104, log entry 38): every 10 µs the hottest of a powered Plain's sensors
drives its duty limit, whatever the Plain's own state; at 100 °C the frequency limit falls by 50 MHz every
100 µs and below 97 °C it rises by 50 MHz every 1 ms; 1 ms below the release threshold of a duty limit raises it; 115 °C, sampled
or seen by itself, is a thermal trip. -/
def Obligations.PlainThermalRows : Prop :=
  (∀ (s : State) (p : Nat) (q : List Int) (t : Int), s.aon = true → p < 16 → s.judged (3 + quadOf p) = true → q.max? = some t →
    (∀ u ∈ (s.plain p).sampledAt, u + 10000 ≤ s.now) →
    let u : State := (s.updPlain p fun x => { x with sampledAt := some s.now }).thermal p t
    (t < 460 → exec (.plainThermalSample p q) s = .next (finish s u)) ∧
    (460 ≤ t → exec (.plainThermalSample p q) s = .next (finish s (u.trip p t)))) ∧
  (∀ (s : State) (p : Nat), s.core = true → 400 ≤ (s.plain p).hottest → (s.plain p).limitAt + 100000 ≤ s.now →
    exec (.plainFreqLimitStep p) s = .next (finish s
      ((s.updPlain p fun x => { x with limit := x.limit - 4, limitAt := s.now }).markThrottled [p]))) ∧
  (∀ (s : State) (p : Nat), s.core = true → (s.plain p).hottest < 388 → (s.plain p).limit < 104 →
    (s.plain p).limitAt + 1000000 ≤ s.now →
    exec (.plainFreqLimitStep p) s = .next (finish s (s.updPlain p fun x => { x with
      limit := if x.target ≤ x.limit + 4 then 104 else x.limit + 4, limitAt := s.now }))) ∧
  (∀ (s : State) (p t : Nat), s.core = true → (s.plain p).duty = 1 → (s.plain p).below = some t → t + 1000000 ≤ s.now →
    exec (.plainThrottleRelease p) s = .next (finish s (s.updPlain p fun x =>
      { x with duty := 4, below := if x.hottest < 408 then some s.now else none }))) ∧
  (∀ (s : State) (p t : Nat), s.core = true → (s.plain p).duty < 8 → (s.plain p).duty ≠ 1 → (s.plain p).below = some t →
    t + 1000000 ≤ s.now →
    exec (.plainThrottleRelease p) s = .next (finish s
      ((s.updPlain p fun x => { x with duty := 8, below := none }).throttleEvent p EV.plainThrottleClear))) ∧
  (∀ (s : State) (p : Nat) (q : Int), s.aon = true → p < 16 → s.judged (3 + quadOf p) = true → 460 ≤ q →
    exec (.plainThermalTrip p q) s = .next (finish s (s.trip p q))) ∧
  (∀ (s : State) (p : Nat) (q : Int),
    let t : State := s.updPlain p fun x => { x with hottest := q, tripped := true }
    s.trip p q = State.faultDown { t with sup := { t.sup with thermtrip := true } }
      { channel := 255, cause := 4, level := 3, plain := p, stamp := s.now })

/-- R55, R70, R72, R73, R75, R76, R112, R468 (what the keeper answers to a read is the model's reading of R73): the end of a
power-state entry and the ways out of QSC, STBY and OFF, COLD and WARM, and what a host access does while the keeper
stands in for the host interface. The exit from QSC raises the core rails to their targets and is over when they have settled.
Without VDD_AON nothing but its return, and the pins, acts. -/
def Obligations.ChipPowerRows : Prop :=
  (∀ (s : State) (goal : Chip), s.aon = true → s.sup.seq = .down [] goal →
    exec .chipStateReached s = .next (finish s (s.seqEnd goal))) ∧
  (∀ (s : State) (r : Req), s.aon = true → s.sup.seq = .steady → s.power.entry = some (.qsc, some r) →
    let t : State := { s with
      rails := s.rails.map fun (x : Rail) =>
        (if x.cfg.avs && x.enabled then { x with resume := x.target, target := 240, moving := none } else x),
      plains := s.plains.map fun (x : Plain) =>
        (if x.state == PlainState.off || x.state == PlainState.ret then x
         else { x with state := .ret, since := s.now, exiting := false }),
      hif := { s.hif with pm := 1 }, power := { s.power with chip := .qsc, entry := none } }
    exec .chipStateReached s = .next (finish s ((t.complete r ST.ok).emit [0] EV.powerState 2 0 (pay [(0, 1)])))) ∧
  (∀ s : State, s.keeper = true → exec .pciePmWake s = .next (finish s s.wake) ∧
    (∀ v : BitVec 32, bit v.toNat 0 = true → exec (.pwrWakeWrite v) s = .next (finish s s.wake))) ∧
  (∀ s : State, s.aon = true → s.power.chip = .off → s.sup.seq = .steady →
    exec .pldmSetStateEffecter s = .next (finish s s.cold)) ∧
  (∀ s : State, s.aon = true → s.power.chip ≠ .off → exec .pldmSetStateEffecter s = .next (finish s s.wake)) ∧
  (∀ s : State, s.keeper = true → s.power.waking = true → s.power.chip = .qsc → s.power.rising = false →
    exec .chipWake s = .next (finish s (State.qscEnds { s with
      rails := s.rails.map fun (x : Rail) =>
        (if x.cfg.avs && x.enabled then
          { x with target := x.resume, moving := some x.target, movedAt := s.now, settleFault := false } else x),
      hif := { s.hif with pm := 0 }, power := { s.power with rising := true } }))) ∧
  (∀ s : State, s.power.rising = true →
    ((∀ r ∈ s.rails, r.cfg.avs = true → r.enabled = true → r.moving = none) → s.qscEnds =
      { s with power := { s.power with chip := .active, waking := false, rising := false } }.emit [0] EV.powerState 2 0 0) ∧
    ((∃ r ∈ s.rails, r.cfg.avs = true ∧ r.enabled = true ∧ r.moving ≠ none) → s.qscEnds = s)) ∧
  (∀ s : State, s.keeper = true → s.power.waking = true → s.power.chip = .stby → s.sup.seq = .steady →
    (s.rail 1).enabled = false →
    exec .chipWake s = .next (finish s (State.railOn { s with sup := { s.sup with seq := .up s.stbyOn } } 1))) ∧
  (∀ (s : State) (m off : Nat), s.keeper = true → s.suspended = true → (s.fn m).enabled = true →
    exec (.keeperBar0Access m off none) s = .next (finish s { s with readData := 2 ^ 32 - 1 })) ∧
  (∀ (s : State) (m off : Nat) (v : BitVec 32), s.keeper = true → s.suspended = true → (s.fn m).enabled = true →
    ((doorbellAt m off).isSome = true → exec (.keeperBar0Access m off (some v)) s = .next (finish s
      ((s.updFn m fun x => { x with latch := x.latch.filter (·.1 != off) ++ [(off, v.toNat)] }).wake))) ∧
    ((doorbellAt m off).isSome = false → m = 0 → off = 0x60008 → bit v.toNat 0 = true →
      exec (.keeperBar0Access m off (some v)) s = .next (finish s s.wake))) ∧
  (∀ s : State, s.aon = true → exec .coldReset s = .next (finish s s.cold) ∧ exec .vddAonPowerOn s = .next (finish s s) ∧
    exec .vddAonPowerLoss s = .next (finish s { s.cold with
      rails := s.cold.rails.map fun r => { r with enabled := false, state := .off },
      sup := { s.cold.sup with seq := .steady, aonUp := false }, boot := { s.cold.boot with caps := 0 },
      power := { s.cold.power with chip := .off } })) ∧
  (∀ s : State, s.aon = false → exec .vddAonPowerOn s = .next (finish s s.cold) ∧ exec .coldReset s = .next s ∧
    exec .pldmSetStateEffecter s = .next s) ∧
  (∀ s : State, s.aon = true → s.warmable = true → exec .warmReset s = .next (finish s s.cutAll.warm)) ∧
  (∀ s : State, s.keeper = true → exec .pcieLinkReset s = .next (finish s
    (if s.linkLost.warmable = true then s.linkLost.cutAll.warm else s.linkLost))) ∧
  (∀ s : State, exec .perstNAssert s = .next (finish s
    (let t : State := { s with power := { s.power with perstLow := some (s.power.perstLow.getD s.now) } }
     if s.aon ∧ s.sup.powerGood = true ∧ t.warmable = true then t.cutAll.warm else t))) ∧
  (∀ (s : State) (t : Nat), s.power.perstLow = some t →
    let u : State := { s with power := { s.power with perstLow := none, perstRise := s.now } }
    exec .perstNRelease s = .next (finish s
      (if s.aon = true ∧ s.power.chip = .off ∧ s.sup.seq = .steady ∧ t + 100000 ≤ s.now then u.cold else u)))

/-- R72, R73, R74 (the suspend contents stay in the state's own fields, log entry 135): the end of the save for STBY destroys the
confidential partitions that do not retain their keys, leaves the Valley, wraps the keys, keeps the hash of the CP image that it
saved, completes the command and starts the lowering of the rails; the end of the restore, which a saved image that does not match
the hash never reaches, brings the chip back to ACTIVE and replays the doorbells that the keeper latched. -/
def Obligations.StandbySaveAndRestore : Prop :=
  (∀ (s : State) (r : Req), s.core = true → s.power.entry = some (.stby, some r) →
    let a : State := ((List.range 32).filter fun p =>
        (s.part p).exist && (s.part p).cfg.confidential && !(s.part p).cfg.retainKeys).foldl State.destroyNow s
    let b : State := (List.range 24).foldl State.portLost a.leaveValley
    let d : State := { b with
      valley := { b.valley with left := a.leaveLinks },
      sec := { b.sec with keys := insertNat 33 b.sec.keys, drbgCount := b.sec.drbgCount + 1, cpHash := b.sec.measuredFw },
      coll := { b.coll with groups := b.coll.groups.map fun (g : Group) => { g with staged := [] } },
      power := { b.power with saved := true, image := b.sec.measuredFw, entry := some (.stby, none) } }
    let e : State := (d.setLevel 0).complete r ST.ok
    exec .stbySaveDone s = .next (finish s (e.seqDown e.stbyOff .stby))) ∧
  (∀ s : State, s.keeper = true → s.power.chip = .stby → s.power.waking = true → s.sup.seq = .steady → s.judged 1 = true →
    (∀ x ∈ s.plains, x.locked = true) →
    let a : State := { s with
      power := { s.power with chip := .active, waking := false, saved := false },
      sec := { s.sec with keys := s.sec.keys.filter (· != 33) },
      cp := { s.cp with up := !s.cp.failed, lastBeat := s.now },
      plains := s.plains.map fun (x : Plain) =>
        (if x.state == PlainState.off then x
         else { x with state := .run, since := s.now, exiting := false, held := [], heldWrites := [] }),
      fns := s.fns.map fun (x : Fn) => ({ x with latch := [] } : Fn) }
    (s.power.image = s.sec.cpHash → exec .stbyRestoreDone s = .next (finish s
      ((List.range 33).foldl (fun t m => ((s.fns.map (·.latch)).getD m []).foldl (fun t d => t.replay m d) t)
        (a.emit [0] EV.powerState 2 0 0)).advance)) ∧
    (s.power.image ≠ s.sec.cpHash → exec .stbyRestoreDone s = .next (finish s s)))

/-! ### Ford windows, registers, debug and firmware -/

/-- R73, R119, R123, R129, R130, R131, R132: a doorbell below the slot count starts a scan towards it, repeated 20 µs later where it
stops short, each doorbell at its own time; one at or above the slot count is a violation, and in STBY the keeper latches it; POLL
windows are scanned every 20 µs (at the stamp next to the multiple where a slew passed over it, log entry 148); a flag write and a data
write reach their window; an access that meets no window is counted, and a read of it answers all ones; a locked interface refuses
what does not come on its IDE stream. -/
def Obligations.FordRows : Prop :=
  (∀ (s : State) (m w : Nat) (v : BitVec 32) (ide : Bool), s.keeper = true → s.core = true → s.offStream m ide = false →
    s.fnOpen m = true → w < 64 → (s.window m w).mapped = true → bits v.toNat 0 12 < (s.window m w).count →
    let t : State := s.scan m w (bits v.toNat 0 12)
    exec (.fordDbWrite m w v ide) s = .next (finish s (State.doorbellWake
      (if (t.window m w).head = bits v.toNat 0 12 then t
       else t.updWindow m w fun x => { x with rescans := x.rescans ++ [(t.now, bits v.toNat 0 12)] })).advance)) ∧
  (∀ (s : State) (m w : Nat) (v : BitVec 32) (ide : Bool), s.keeper = true → s.core = true → s.offStream m ide = false →
    s.fnOpen m = true → w < 64 → ((s.window m w).mapped = false ∨ (s.window m w).count ≤ bits v.toNat 0 12) →
    exec (.fordDbWrite m w v ide) s = .next (finish s (s.violate m w))) ∧
  (∀ (s : State) (m w : Nat) (v : BitVec 32) (ide : Bool), s.keeper = true → s.core = false → s.suspended = true →
    s.offStream m ide = false → (s.fn m).enabled = true → w < 64 →
    let off := (if m = 0 then 0x20000 else 0x2000) + 8 * w
    exec (.fordDbWrite m w v ide) s = .next (finish s
      ((s.updFn m fun x => { x with latch := x.latch.filter (·.1 != off) ++ [(off, v.toNat)] }).wake))) ∧
  (∀ (s : State) (m w t tail : Nat) (rest : List (Nat × Nat)), s.core = true → s.fnOpen m = true → (s.window m w).mapped = true →
    (s.window m w).rescans = (t, tail) :: rest → t + 20000 ≤ s.now →
    exec (.fordRescan m w) s = .next (finish s
      (((s.updWindow m w fun x => { x with rescans := rest }).scan m w tail).advance))) ∧
  (∀ s : State, s.core = true → s.power.chip = .active → s.now % 20000 ≤ 1 → s.hif.polled ≠ s.now / 20000 →
    exec .fordPoll s = .next (finish s
      ((List.range 33).foldl (fun (s : State) f => (List.range 64).foldl (fun (s : State) w =>
        if s.fnOpen f && (s.window f w).mapped && (s.window f w).poll then s.takeSlots f w (s.window f w).count else s) s)
        { s with hif := { s.hif with polled := s.now / 20000 } }).advance)) ∧
  (∀ (s : State) (m w byte : Nat) (v : BitVec 32) (ide : Bool), s.core = true → s.offStream m ide = false → s.fnOpen m = true →
    (s.window m w).mapped = true → byte < (s.window m w).flagBytes → byte % 4 = 0 →
    exec (.fordFlagWrite m w byte v ide) s = .next (finish s (s.flagWrite m w (byte / 4) v.toNat))) ∧
  (∀ (s : State) (m off : Nat) (data : List Byte) (ep ide : Bool), s.core = true → s.offStream m ide = false → m < 33 →
    (s.fn m).enabled = true → exec (.fordDataWrite m off data ep ide) s = .next (finish s (s.hostWrite m off data ep))) ∧
  (∀ (s : State) (m off : Nat) (ide : Bool), s.core = true → s.offStream m ide = false → (s.fn m).enabled = true →
    s.windowAt m off = none →
    exec (.bar2UnmappedAccess m off true ide) s = .next (finish s
      (s.updFn m fun x => { x with unmappedWr := sat 32 (x.unmappedWr + 1) })) ∧
    exec (.bar2UnmappedAccess m off false ide) s = .next (finish s
      { s.updFn m (fun x => { x with unmappedRd := sat 32 (x.unmappedRd + 1) }) with readData := 2 ^ 64 - 1 })) ∧
  (∀ (s : State) (m off w byte : Nat) (v : BitVec 32) (data : List Byte) (ep : Bool), s.core = true → s.keeper = true →
    ((s.fn m).tdi = 1 ∨ (s.fn m).tdi = 2) →
    let u : State := s.updFn m fun x => { x with urLogged := true }
    exec (.fordDbWrite m w v false) s = .next (finish s u) ∧ exec (.fordFlagWrite m w byte v false) s = .next (finish s u) ∧
    exec (.fordDataWrite m off data ep false) s = .next (finish s u) ∧
    exec (.bar2UnmappedAccess m off true false) s = .next (finish s u) ∧
    exec (.bar2UnmappedAccess m off false false) s = .next (finish s { u with readData := 2 ^ 64 - 1 }))

/-- R123, R449, R450, R456, R457: a read answers the register's value; reading the low word of a pair latches its high word, and a
latched high word answers what was latched; a write of PWR_ALERT_CAUSE clears the bits written 1 whose condition has
gone; an aligned write of 4 or 8 bytes writes one word or two, a word with a row of its own doing what that row does; a locked interface
refuses what does not come on its IDE stream; the PTM stamps are latched with their first word and the
link error counts are cleared by their read. -/
def Obligations.RegisterRows : Prop :=
  (∀ (s : State) (m off size : Nat) (ide : Bool), s.core = true → s.offStream m ide = false → s.bar0On m = true → (size = 4 ∨ size = 8 → off % size ≠ 0) →
    exec (.loRegisterRead m off size ide) s = .next (finish s { s with readData := 0 })) ∧
  (∀ (s : State) (m off : Nat) (ide : Bool), s.core = true → s.offStream m ide = false → s.bar0On m = true → off % 4 = 0 → latched m (blockOf m off) = true →
    exec (.loRegisterRead m off 4 ide) s = .next (finish s { s with readData := s.latchOf m off })) ∧
  (∀ (s : State) (m off : Nat) (ide : Bool), s.core = true → s.offStream m ide = false → s.bar0On m = true → roPair m (blockOf m off) = true →
    let t : State := if blockOf m off = (9, 0x048) then s.perfRead else s
    (off % 4 = 0 → exec (.loRegisterRead m off 4 ide) s = .next (finish s
      { t.setLatch m (off + 4) (t.reg m (off + 4)) with readData := t.reg m off })) ∧
    (off % 8 = 0 → exec (.loRegisterRead m off 8 ide) s = .next (finish s
      { t.setLatch m (off + 4) (t.reg m (off + 4)) with readData := t.reg m off + t.reg m (off + 4) * 2 ^ 32 }))) ∧
  (∀ (s : State) (m off : Nat) (ide : Bool), s.core = true → s.offStream m ide = false → s.bar0On m = true → off % 4 = 0 → latched m (blockOf m off) = false →
    roPair m (blockOf m off) = false →
    exec (.loRegisterRead m off 4 ide) s = .next (finish s { s with readData := s.reg m off })) ∧
  (∀ (s : State) (m off : Nat) (ide : Bool), s.core = true → s.offStream m ide = false → s.bar0On m = true → off % 8 = 0 → roPair m (blockOf m off) = false →
    exec (.loRegisterRead m off 8 ide) s = .next (finish s
      { s with readData := s.regWord m off + s.regWord m (off + 4) * 2 ^ 32 })) ∧
  (∀ (s : State) (v : BitVec 32), s.core = true → s.bar0On 0 = true →
    exec (.pwrAlertCauseWrite v) s = .next (finish s { s with sup := { s.sup with
      alert := s.sup.alert &&& BitVec.ofNat 8 (maskOf 8 fun i => !bit v.toNat i || s.causeHeld i) } })) ∧
  (∀ (s : State) (m off : Nat) (v : BitVec 64) (ide : Bool), s.core = true → s.offStream m ide = false → s.bar0On m = true →
    (off % 4 = 0 → exec (.registerWrite m off 4 v ide) s = .next (finish s (s.wordWrite m off (wordOf v.toNat false)))) ∧
    (off % 8 = 0 → exec (.registerWrite m off 8 v ide) s = .next (finish s
      ((s.wordWrite m off (wordOf v.toNat false)).wordWrite m (off + 4) (wordOf v.toNat true))))) ∧
  (∀ (s : State) (m w : Nat), s.wordWrite m (tailOff m) w = s.sqTail m w) ∧
  (∀ (s : State) (m off size : Nat) (v : BitVec 64), s.core = true → ((s.fn m).tdi = 1 ∨ (s.fn m).tdi = 2) →
    let u : State := s.updFn m fun x => { x with urLogged := true }
    exec (.registerWrite m off size v false) s = .next (finish s u) ∧
    exec (.loRegisterRead m off size false) s = .next (finish s { u with readData := 2 ^ 64 - 1 })) ∧
  (∀ s : State, s.core = true → s.bar0On 0 = true → exec .hifPtmMasterLoRead s = .next (finish s
    { List.foldl (fun (t : State) o => t.setLatch 0 (0x50000 + o) (t.regHif o)) s [0x24, 0x28, 0x2C] with readData := s.regHif 0x20 })) ∧
  (∀ s : State, s.core = true → s.bar0On 0 = true → exec .hifLinkErrRead s = .next (finish s
    { s with readData := s.regHif 4, hif := { s.hif with recoveries := 0, replays := 0 } }))

/-- R418, R420, R421, R458 and Table 21-8: at a debug level that opens them, the log, trace and memory windows are latched and read; HALT and STEP bits
are written at INVASIVE only; a scanned JTAG instruction that the state of the device closes is BYPASS; SENSOR 0 of PLDM
gives the 32 bytes of the last rail-fault record (R58), and an SPDM request its answer, the report of a device interface among them
(the codes are the model's, log entry 69, and the layout of the report, log entry 153). -/
def Obligations.DebugRows : Prop :=
  (∀ s : State, s.core = true → s.bar0On 0 = true → s.sec.level ≠ 0 →
    exec .dbgLogData0Read s = .next (finish s
      { s with dbg := { s.dbg with logLatch := s.logBytes }, readData := wordAt s.logBytes 0 }) ∧
    exec .dbgTraceData0Read s = .next (finish s
      { s with dbg := { s.dbg with traceLatch := s.traceBytes }, readData := wordAt s.traceBytes 0 })) ∧
  (∀ (s : State), s.core = true → s.bar0On 0 = true → s.sec.level = 0 →
    exec .dbgLogData0Read s = .next (finish s { s with readData := 0 }) ∧
    exec .dbgTraceData0Read s = .next (finish s { s with readData := 0 }) ∧
    exec .dbgMemDataLoRead s = .next (finish s { s with readData := 0 })) ∧
  (∀ (s : State) (a : Nat), s.core = true → s.bar0On 0 = true → s.sec.level = 2 → s.dbgWord = .at' a →
    exec .dbgMemDataLoRead s = .next (finish s
      { s with readData := s.rdNat a 8 % 2 ^ 32,
               dbg := ({ s.dbg with memData := BitVec.ofNat 64 (s.rdNat a 8) } : Dbg).advance })) ∧
  (∀ (s : State) (p : Nat), s.core = true → s.bar0On 0 = true → s.sec.level = 2 → s.dbgWord = .wait p →
    exec .dbgMemDataLoRead s = .next (finish s ((s.dbgHold none).wakePlain p)) ∧
    ∀ v : BitVec 32, exec (.dbgMemDataHiWrite v) s = .next (finish s ((s.dbgHold (some (s.dbgData v))).wakePlain p))) ∧
  (∀ (s : State) (a : Nat) (v : BitVec 32), s.core = true → s.bar0On 0 = true → s.sec.level = 2 → s.dbgWord = .at' a →
    let d := s.dbg.memData.toNat % 2 ^ 32 + v.toNat * 2 ^ 32
    exec (.dbgMemDataHiWrite v) s = .next (finish s
      { s.wr a (leBytes 8 d) with dbg := ({ s.dbg with memData := BitVec.ofNat 64 d } : Dbg).advance })) ∧
  (∀ (s : State) (v : BitVec 4), s.core = true → s.bar0On 0 = true → s.sec.level = 2 →
    exec (.dbgCpHalt v) s = .next (finish s { s with
      dbg := { s.dbg with cpHalt := v },
      cp := if s.dbg.cpHalt ≠ 0 ∧ v = 0 then { s.cp with lastBeat := s.now } else s.cp }) ∧
    exec (.dbgCpStep v) s = .next (finish s { s with dbg := { s.dbg with
      cpSteps := s.dbg.cpSteps.mapIdx fun i n => if bit v.toNat i && bit s.dbg.cpHalt.toNat i then n + 1 else n } })) ∧
  (∀ s : State, s.aon = true → exec (.jtagInstruction .idcode) s = .next (finish s
    { s with dbg := { s.dbg with jtag := .idcode }, readData := Config.idcode.toNat })) ∧
  (∀ (s : State) (op : JtagOp), s.aon = true → s.jtagOpen op = false → exec (.jtagInstruction op) s = .next (finish s
    { s with dbg := { s.dbg with jtag := .bypass }, readData := 0 })) ∧
  (∀ (s : State) (r : LogRec), s.aon = true → s.sup.last = some r → exec (.pldmSensorRead 0) s = .next (finish s
    { s with fresh := s.fresh + 1, readData := leNat r.bytes })) ∧
  (∀ (s : State) (slot : Nat), s.solram = true →
    exec (.spdmRequest 0xE0 slot) s = .next (finish s { s with readData := leNat (s.measurement slot) }) ∧
    exec (.spdmRequest 0x82 0) s = .next (finish s
      { s with readData := leNat (Config.certificates 1 ++ Config.certificates 2 ++ s.certs) }) ∧
    exec (.spdmRequest 0xFE slot) s = .next (finish s { s with readData := leNat (s.tdiReport slot) })) ∧
  (∀ (s : State) (c : List Byte) (t : Nat), s.core = true → s.sec.challenge = some (c, t) → t + 60000000000 ≤ s.now →
    exec .debugChallengeLapse s = .next (finish s { s with sec := { s.sec with challenge := none } }))

/-- R14, R82 to R86, R198, R407, R408, R427, R428, R431, R434, R436, R439, R448: the boot goes on from stage to stage, the start test
waiting for every generator's lock and the bring-up for the last of start test and Basins; the device reports READY or
SERVICE, a failed self-test or entropy test puts Solram in ERROR, a flash too small for the map, or without SFDP, stops the boot, flash work goes on
sector by sector while the CP is up, and the end of FW_VERIFY marks the slot VERIFIED or INVALID. -/
def Obligations.BootAndFirmwareRows : Prop :=
  (∀ (s : State) (part : Option (Nat × Bool)), s.core = true → s.boot.stage = .secureBoot → s.fw.unbootable = none →
    s.sec.error = false → s.boot.kind = 0 → exec (.secureBootDone false part) s = .next (finish s s.solramError)) ∧
  (∀ (t : State) (k : Nat), (t.bootInto k).boot.stage = .test ∧ (t.bootInto k).cp.up = true ∧ (t.bootInto k).fw.running = k) ∧
  (∀ (s : State) (size : Nat) (octal : Bool), s.core = true → s.boot.stage = .secureBoot → s.fw.unbootable = none →
    s.sec.error = false →
    let a : State := { s with
      sec := { s.sec with selfTest := true }, boot := { s.boot with flashPart := some (size, octal) } }
    (size < 2 ^ 26 → exec (.secureBootDone true (some (size, octal))) s = .next (finish s a.fault)) ∧
    exec (.secureBootDone true none) s = .next (finish s
      (State.fault { s with sec := { s.sec with selfTest := true }, boot := { s.boot with flashPart := none } })) ∧
    (2 ^ 26 ≤ size → exec (.secureBootDone true (some (size, octal))) s = .next (finish s (match a.bootDecision with
      | (t, none) => State.fault { t with fw := { t.fw with unbootable := some t.now } }
      | (t, some k) =>
        let u : State := t.bootInto k
        let v : State := if u.boot.kind = 0 && u.sec.lifecycle = 3 && !u.sec.rmaErased then
          { u.eraseFlash defectBase 0x10000 with sec := { u.sec with rmaErased := true } } else u
        let w : State := ((List.range 24).foldl State.portLost v).applyDefects
        w.log { code := EV.logBoot, cls := 2, stamp := w.now,
                payload := pay [(0, w.boot.kind), (1, if w.boot.defaultUsed then 255 else w.boot.active), (4, w.fw.version)] })))) ∧
  (∀ (s : State) (results : List TestResult), s.core = true → s.boot.stage = .test →
    ((∀ x ∈ s.plains, x.locked = true) →
      let t : State := results.foldl State.startResult s
      exec (.startTestDone results) s = .next (finish s (State.bringUp { t with
        plains := t.plains.mapIdx fun p (x : Plain) => ({ x with
          state := .run, since := t.now, target := min 76 (t.prof.freqCap.getD p 0) } : Plain),
        mem := { t.mem.zero storeBase affineBase with panels := [] },
        boot := { t.boot with stage := .train } }))) ∧
    ((∃ x ∈ s.plains, x.locked = false) → exec (.startTestDone results) s = .next (finish s s))) ∧
  (∀ s : State, (s.boot.stage = .train → s.basinsDone = true →
      let t : State := s.applyDefects
      let u : State := (List.range 32).foldl State.profilePart
        { t with mem := { t.mem with live := (List.range 8).filter fun b => (t.basin b).state != .failed } }
      s.bringUp = State.refreshCaps { u with boot := { u.boot with stage := .calibrate } }) ∧
    ((s.boot.stage ≠ .train ∨ s.basinsDone = false) → s.bringUp = s)) ∧
  (∀ (s : State) (costs : List Cost) (rate : Nat), s.core = true → s.boot.stage = .calibrate → s.boot.calibrated = false →
    exec (.calibrationDone costs rate) s = .next (finish s { s with
      boot := { s.boot with calibrated := true }, sched := { s.sched with costs := costs, beRate := rate } })) ∧
  (∀ s : State, s.core = true → s.boot.stage = .calibrate → s.boot.calibrated = true → s.fw.fallback = none →
    (s.boot.fatal = false → s.sec.lifecycle ≠ 4 → exec .deviceReady s = .next (finish s
      ((State.emit { s with boot := { s.boot with stage := .ready } } [0] EV.deviceReady 2).finalSnap))) ∧
    ((s.boot.fatal = true ∨ s.sec.lifecycle = 4) →
      exec .deviceReady s = .next (finish s (State.finalSnap { s with boot := { s.boot with stage := .service } })))) ∧
  (∀ (s : State) (t : Nat), s.core = true → s.fw.unbootable = some t → t + 1000000000 ≤ s.now →
    exec .flashRelease s = .next (finish s { s with fw := { s.fw with released := true } })) ∧
  (∀ (s : State) (w : Work) (rest : List Work), s.core = true → s.boot.work = w :: rest →
    (s.cpUp = true → exec .flashSectorProgrammed s = .next (finish s (s.workStep w rest))) ∧
    (s.cpUp = false → exec .flashSectorProgrammed s = .next (finish s s))) ∧
  (∀ (s : State) (r : Req), s.core = true → s.cpUp = true → s.fw.verify = some r →
    exec .fwVerifyDone s = .next (finish s (if s.imageCause s.other = 0 then
      (State.setSlot { s with fw := { s.fw with
        verify := none, mark := some (s.bodyDigest s.other) } } s.other .verified).fwEnd r ST.ok 0
    else (State.setSlot { s with fw := { s.fw with
        verify := none, mark := none } } s.other .invalid).fwEnd r ST.fwVerifyFailed (s.imageCause s.other)))) ∧
  (∀ s : State, s.core = true → s.sec.error = false → exec .entropyTestFail s = .next (finish s
    (s.solramError.emit allRings EV.solramError 1)))

/-! ### Operations and the life of a job -/

/-- R191 and chapters 15 to 20: an operation dispatched by the scheduler whose operands are within reach writes
its destination by the rules of its chapter (the effects are the model's eff functions) and is charged what it moved. The
rows are MATMUL, CONV, TCONV, SFU, SOFTMAX, NORM, QUANT, COPY and COMPOSE; ATTN and KV_APPEND where nothing
blocks them and no read of a pool on another chip is to come (R340), and COLL, which is issued. An operation whose operands are not within
reach faults its job with the cause found (of its writes a prefix has landed, how long is open, log entry 3), and one whose bytes
have still to come from another chip, or whose Plain leaves RET first, waits: here for MATMUL. -/
def Obligations.OperationRows : Prop :=
  (∀ (s : State) (i d : Nat) (o : Op), s.core = true →
    (s.op? i d oMatmul = some o → s.reach o (matmulRegions s o).1 (matmulRegions s o).2 = .go →
      exec (.matmul i d) s = .next (finish s ((effMatmul s o).opDone o (matmulRegions s o).1 (matmulRegions s o).2))) ∧
    (s.op? i d oConv = some o → s.reach o (convRegions s o).1 (convRegions s o).2 = .go →
      exec (.conv i d) s = .next (finish s ((effConv s o).opDone o (convRegions s o).1 (convRegions s o).2))) ∧
    (s.op? i d oTconv = some o → s.reach o (convRegions s o).1 (convRegions s o).2 = .go →
      exec (.tconv i d) s = .next (finish s ((effTconv s o).opDone o (convRegions s o).1 (convRegions s o).2))) ∧
    (s.op? i d oSfu = some o → s.reach o (regionsOf [16, 24] s o).1 (regionsOf [16, 24] s o).2 = .go →
      exec (.sfu i d) s = .next (finish s ((effSfu s o).opDone o (regionsOf [16, 24] s o).1 (regionsOf [16, 24] s o).2))) ∧
    (s.op? i d oSoftmax = some o → s.reach o (regionsOf [16] s o).1 (regionsOf [16] s o).2 = .go →
      exec (.softmax i d) s = .next (finish s ((effSoftmax s o).opDone o (regionsOf [16] s o).1 (regionsOf [16] s o).2))) ∧
    (s.op? i d oNorm = some o → s.reach o (regionsOf [16, 24, 32] s o).1 (regionsOf [16, 24, 32] s o).2 = .go →
      exec (.norm i d) s = .next (finish s
        ((effNorm s o).opDone o (regionsOf [16, 24, 32] s o).1 (regionsOf [16, 24, 32] s o).2))) ∧
    (s.op? i d oQuant = some o → s.reach o (regionsOf [16] s o).1 (regionsOf [16] s o).2 = .go →
      exec (.quant i d) s = .next (finish s ((effConvert s o).opDone o (regionsOf [16] s o).1 (regionsOf [16] s o).2))) ∧
    (s.op? i d oCopy = some o → s.reach o (regionsOf [16] s o).1 (regionsOf [16] s o).2 = .go →
      exec (.copy i d) s = .next (finish s ((effCopy s o).opDone o (regionsOf [16] s o).1 (regionsOf [16] s o).2))) ∧
    (s.op? i d oCompose = some o → s.reach o [] [] = .go →
      exec (.compose i d) s = .next (finish s ((effCompose s o).opDone o [] []))) ∧
    (∀ m, s.op? i d oAttn = some o → s.kvWaits i d = none → dField o.b 24 = 0 → s.kvOf o.x.index = some m → (s.pool m.pool).lost = false →
      s.reach o (attnRegions s o).1 (attnRegions s o).2 = .go →
      exec (.attn i d) s = .next (finish s ((effAttn s o).opDone o (attnRegions s o).1 (attnRegions s o).2))) ∧
    (s.op? i d oAttn = some o → s.kvWaits i d = none → dField o.b 24 ≠ 0 →
      s.appendBlocked o (o.b.nat 40 0 16) (o.b.nat 44 0 32) ((s.opTensor o 16).dim 2) = none →
      s.reach o (attnRegions s o).1 (attnRegions s o).2 = .go →
      exec (.attn i d) s = .next (finish s ((effAttn s o).opDone o (attnRegions s o).1 (attnRegions s o).2))) ∧
    (s.op? i d oKvAppend = some o → s.appendBlocked o (o.b.nat 32 0 16) (s.appendAt o) ((s.opTensor o 16).dim 2) = none →
      s.reach o (s.fieldAreas o [16, 24]) [] = .go →
      exec (.kvAppend i d) s = .next (finish s ((effKvAppend s o).opDone o (s.fieldAreas o [16, 24]) []))) ∧
    (s.op? i d oColl = some o → s.reach o (s.opTensor o 16).area (s.opTensor o 8).area = .go →
      exec (.coll i d) s = .next (finish s (s.issueColl o).advance))) ∧
  (∀ (s : State) (i d : Nat) (o : Op), s.core = true → s.op? i d oMatmul = some o →
    (∀ c, s.reach o (matmulRegions s o).1 (matmulRegions s o).2 = .fault c →
      exec (.matmul i d) s = .next (finish s (s.opFault o c (matmulRegions s o).1 (matmulRegions s o).2 (effMatmul s o)))) ∧
    (∀ t, s.reach o (matmulRegions s o).1 (matmulRegions s o).2 = .hold t → exec (.matmul i d) s = .next (finish s t)))

/-- R11, R61, R182, R183, R184, R190, R200, R202, R203, R222: the head job's next leading wait is evaluated, one whose descriptor lies
in the store of a Plain in RET once that Plain is awake; a signal takes effect once every
earlier descriptor has ended; a descriptor ends with its last write, and the correction factor learns from its duration
(R198); a marked descriptor stops at a tile boundary, with a prefix of its destination written, and is saved; a wait that has lasted
TIMEOUT faults its job with cause 0x46, but an LC job that can no longer end in time is dropped first; a remote wait refused for a full
table is sent again; late jobs are dropped once for every 10 µs. -/
def Obligations.JobRows : Prop :=
  (∀ (s : State) (i d : Nat) (x : Stream) (j : Job), s.core = true → s.live? i = some (x, j) → j.waits = d → d < j.leading →
    j.waitFrom = none →
    (s.missed x j = true → exec (.syncWait i d) s = .next (finish s (s.removeJob i j ST.lateDropped).advance)) ∧
    (s.missed x j = false → s.retOf x.owner (j.at d) ≠ [] →
      exec (.syncWait i d) s = .next (finish s ((s.retOf x.owner (j.at d)).foldl State.wakePlain s))) ∧
    (s.missed x j = false → s.retOf x.owner (j.at d) = [] → s.descCheck x j d = none →
      exec (.syncWait i d) s = .next (finish s (s.evalWait x j (s.block (j.at d))).advance)) ∧
    (∀ c, s.missed x j = false → s.retOf x.owner (j.at d) = [] → s.descCheck x j d = some c →
      exec (.syncWait i d) s = .next (finish s (s.faultJob i c d).advance))) ∧
  (∀ (s : State) (i d : Nat) (x : Stream) (j : Job) (e : Desc), s.core = true → s.live? i = some (x, j) → j.leading ≤ j.waits →
    j.next = d → j.descs[d]? = some e → e.op = oSignal → (∀ k, k < d → k < j.leading ∨ j.ended.contains k = true) →
    s.missed x j = false → s.retOf x.owner (j.at d) = [] → s.descCheck x j d = none →
    let t : State := s.updStream i fun x => x.updHead fun j => { j with next := d + 1, started := some (j.started.getD s.now) }
    let r : State × Bool := t.evalSignal x d (t.block (j.at d))
    exec (.syncSignal i d) s = .next (finish s (if r.2 then (r.1.markEnded i d false).endHead i else r.1).advance)) ∧
  (∀ (s : State) (i d : Nat) (r : Run), s.core = true → s.runAt i d = some r →
    r.done = true → r.hps ≠ [] → s.waitsRemote i d = false →
    exec (.descriptorEnd i d) s = .next (finish s
      (((((((s.learn r).endRun i d).markEnded i d (r.op != oCompose)).drainWindows).endHead i).partStep3
        r.part).advance))) ∧
  (∀ (s : State) (i d : Nat) (o : Op), s.core = true → s.opOf i d = some o → o.r.marked = true → o.r.hps ≠ [] →
    (s.part o.r.part).step = 0 →
    exec (.preemptAtTileBoundary i d) s = .next (finish s (((s.cutOp o false).1.chargeRun o.r).saveRun o.r).advance)) ∧
  (∀ (s : State) (r : Run),
    let slots := r.hps.map fun h => (h, s.freeSlot h, s.fresh)
    s.saveRun r =
      let t : State := slots.foldl (fun s v => s.fillSlot v.1 v.2.1 v.2.2) { s with fresh := s.fresh + 1 }
      { t with sched := { t.sched with runs := t.sched.runs.map fun (y : Run) =>
        (if y.s == r.s && y.d == r.d then
          ({ y with ran := y.ran + (t.now - y.since), saved := slots, hps := [], marked := false,
                    cuts := if y.plan.isEmpty || y.done then y.cuts else y.cuts ++ [s.fresh] } : Run) else y) } }) ∧
  (∀ (s : State) (i : Nat) (x : Stream) (j : Job) (t : Nat), s.core = true → s.live? i = some (x, j) → j.waitFrom = some t →
    (s.missed x j = true → exec (.waitTimeout i) s = .next (finish s (s.removeJob i j ST.lateDropped).advance)) ∧
    (s.missed x j = false → j.waitUs ≠ 0 → j.waits < j.leading → t + j.waitUs * 1000 ≤ s.now →
      exec (.waitTimeout i) s = .next (finish s (s.faultJob i 0x46 j.waits).advance))) ∧
  (∀ (s : State) (i : Nat) (o : Outstanding), s.core = true →
    s.valley.outstanding.filter (fun o => o.msg.typ == mSyncOp && o.job.any (·.1 == i) && o.resendAt.any (· ≤ s.now)) = [o] →
    exec (.remoteWaitResend i) s = .next (finish s
      ((s.updOut o.msg.dst o.msg.tag fun y => { y with resendAt := none, since := s.now }).send o.msg))) ∧
  (∀ s : State, s.core = true → s.sched.recheck ≠ s.now / 10000 → exec .latenessRecheck s = .next (finish s
    (State.advance { s with sched := { s.sched with recheck := s.now / 10000 } })))

/-- R208, R216 to R218, R230, R231, R233, R234 (which requests hold a tag of a master, log entry 146): a stream is torn down once its
holders have gone; a partition reset cuts what runs at a
tile boundary, drains what is outstanding and drops its sync objects, a master whose reset has lasted 64 µs has its remaining tags
retired by force, logged, and its epoch raised; the reset scrubs its frames Basin by Basin and is
ready again, but stops at its step with Solram in ERROR; a frame freed is scrubbed before it can be given out. -/
def Obligations.TeardownRows : Prop :=
  (∀ (s : State) (i : Nat) (x : Stream), s.core = true → (s.closeEnds i).stream? i = some x → (s.closeEnds i).canTear i = true →
    exec (.streamTeardown i) s = .next (finish s (((s.closeEnds i).tearDown i).drainWindows.partStep4 x.owner).advance)) ∧
  (∀ (s : State) (i d : Nat) (o : Op), s.core = true → s.opOf i d = some o → o.r.marked = true → o.r.hps ≠ [] →
    (s.part o.r.part).step ≠ 0 →
    exec (.preemptAtTileBoundary i d) s = .next (finish s ((s.cutRun o.r).partStep3 o.r.part))) ∧
  (∀ (s : State) (p : Nat), s.core = true → (s.part p).step = 3 → s.sec.error = false →
    (∀ o ∈ s.valley.outstanding, ¬(o.msg.part = p ∧ o.msg.typ ≠ mSyncOp ∧ o.unit.isSome = true)) →
    let a : State := (s.hpsOf p).foldl (fun s h => (s.masterDone 0 h).masterDone 1 h) s
    let t : State := (a.dropObjs p).updPart p fun x => { x with step := 4 }
    exec (.partDrainDone p) s = .next (finish s (State.partStep4 { t with streams := t.streams.map fun (x : Stream) =>
      (if x.owner == p then
        ({ x with state := .teardown, endCause := some (1, 0xFFFF, (x.head?.map (·.number)).getD 0) } : Stream) else x) } p))) ∧
  (∀ (s : State) (kind unit count : Nat) (x : Master), s.core = true →
    s.sched.masters.find? (fun x => x.kind == kind && x.unit == unit && x.resetAt.any (· + 64000 ≤ s.now)) = some x →
    let t : State := s.logOnly EV.tagForceRetire 2 (pay [(0, kind), (1, unit % 256), (2, count % 65536)])
    let u : State := { t with valley := { t.valley with outstanding := t.valley.outstanding.map fun (o : Outstanding) =>
      (if kind == 0 && o.unit == some unit && o.epoch != t.epochOf 0 unit then
        { o with unit := none, job := none, tomb := some t.now } else o) } }
    exec (.tagForceRetire kind unit count) s = .next (finish s ((u.resetMaster kind unit).masterDone kind unit))) ∧
  (∀ (s : State) (kind unit : Nat), (s.resetMaster kind unit).epochOf kind unit = (s.epochOf kind unit + 1) % 16) ∧
  (∀ (s : State) (p b : Nat), s.core = true → (s.part p).step = 6 → s.sec.error = false → (s.part p).scrub.contains b = true →
    let t : State := ((s.zeroFrames ((s.partFrames p).filter fun r => keyBasin (r.1 * 4096) == b)).releaseResvs
      fun r => r.scrub && r.part == p && r.index == b).updPart p fun x => { x with scrub := x.scrub.filter (· != b) }
    exec (.partHbmScrubDone p b) s = .next (finish s (if (t.part p).scrub.isEmpty then t.mailboxDue p else t))) ∧
  (∀ (s : State) (p : Nat), s.core = true → (s.part p).step = 7 → s.sec.error = false →
    exec (.partReady p) s = .next (finish s ((s.clearMailbox p).partReady p).secResume.advance)) ∧
  (∀ (s : State) (p b : Nat), s.core = true → s.sec.error = true → exec (.partDrainDone p) s = .next (finish s s) ∧
    exec (.partHbmScrubDone p b) s = .next (finish s s) ∧ exec (.partReady p) s = .next (finish s s)) ∧
  (∀ (s : State) (b f : Nat), s.core = true →
    s.mem.scrubbing.any (fun r => r.1 ≤ frameKey b f 0 / 4096 && frameKey b f 0 / 4096 < r.2) = true →
    let k := frameKey b f 0 / 4096
    let t : State := s.zeroFrames [(k, k + 1)]
    exec (.frameScrubDone b f) s = .next (finish s { t with mem := { t.mem with
      scrubbing := cutFrame k t.mem.scrubbing,
      retired := if t.mem.retireOnFree.contains k then t.mem.retired ++ [k] else t.mem.retired,
      retireOnFree := t.mem.retireOnFree.filter (· != k) } }))

/-- R34, R245, R260, R262, R264 to R268: at a window's start, once, releases and reservations stamped before it take effect, the
deliverable bandwidths, the factors and the windows' tokens are set
afresh and the Basins' use of the window begins at 0; a resource that has kept within its bandwidth for 100 ms is no longer
over-committed, and its reservations have their whole amounts again. The first row of a window that needs it starts a window whose
multiple of 1,000 ns no row met (log entry 148). -/
def Obligations.LedgerRows : Prop :=
  (∀ s : State, s.core = true → s.ledger.window ≠ s.now / 1000 + 1 →
    let t : State := s.noteD
    let u : State := { t with ledger := { t.ledger with resvs :=
      (t.ledger.resvs.filter fun (r : Resv) => !(r.released.any (· < t.windowBegan) : Bool)).map fun (r : Resv) =>
        (if r.committed < t.windowBegan then { r with inEffect := true } else r) } }
    let v : State := u.ledger.resources.foldl State.resourceWindow u
    let rs := v.ledger.resvs.map fun (r : Resv) =>
      (if r.inEffect then { r with tokens := r.factors.map fun f => r.amount * f / 32768 } else r)
    exec .windowStart s = .next (finish s { v with
      ledger := { v.ledger with resvs := rs, window := v.now / 1000 + 1 },
      media := { v.media with cores := v.media.cores.mapIdx (creditCore rs) },
      basins := v.basins.map fun (b : Basin) => { b with used := 0, lcr := 0, mnt := 0, patrolDone := false } })) ∧
  (∀ (s : State) (kind index dir t : Nat) (x : Resource), s.core = true → s.ledger.window = s.now / 1000 + 1 →
    s.ledger.resources.find? (fun r => r.kind == kind && r.index == index && r.dir == dir) = some x →
    x.overc = true → x.okSince = some t → t + 100000000 ≤ s.windowBegan → s.now ≤ s.windowBegan + 1 →
    let v : State := (s.updResource kind index dir fun r => { r with overc := false, windows := 0, okSince := none }).setFactors
      kind index dir (fun _ => 32768) true
    let u : State := if kind = 0 then v.updBasin index fun b => { b with cap := min 60 (b.cap + 10) } else v
    exec (.ledgerRecovered kind index dir) s = .next (finish s (u.ledgerEvent EV.ledgerRecovered kind index dir (x.dAt u.windowBegan)
      (resvSum (s.ledger.resvs.filter fun r => r.kind == kind && r.index == index && r.inEffect))))) ∧
  (∀ s : State, s.windowBegan = s.now / 1000 * 1000)

/-! ### Basins, ports, the Valley, media and errors -/

/-- R85, R90, R92, R93, R94, R95, R98, R235, R246, R252, R253, R258: a Basin serves the request its arbiter chooses, a patrol granule that
is behind its schedule before it, or none; the patrol reads its next granule once a window; rows that two on-die reports running, 1 s
apart, name are lasting errors; a training state ends, at COLD beside the start test; a drained Basin goes on to refresh, repair or
training; retrains start in order; and the end of a hard repair completes its command. -/
def Obligations.BasinRows : Prop :=
  (∀ (s : State) (b : Nat) (arrivals : List BasinReq) (check : ReadCheck), s.core = true → b < 8 →
    let t : State := s.windowDue.updBasin b fun x => { x with
      queue := x.queue ++ (arrivals.take (1024 - x.queue.length)).mapIdx (fun i (q : BasinReq) => { q with seq := x.seq + i }),
      seq := x.seq + (arrivals.take (1024 - x.queue.length)).length }
    (t.basin b).state ≠ .failed → t.issues b = true →
    (t.patrolOpen b = true → (t.basin b).patrol < (t.now - (t.basin b).patrolStart) * patrolLen / 43200000000000 →
      exec (.basinArbitrate b arrivals check) s = .next (finish s (t.patrolStep b check))) ∧
    ((t.patrolOpen b = false ∨ (t.now - (t.basin b).patrolStart) * patrolLen / 43200000000000 ≤ (t.basin b).patrol) →
      (∀ q dd, t.arbitrate b = some (q, dd) →
        exec (.basinArbitrate b arrivals check) s = .next (finish s (t.serve b q dd check))) ∧
      (t.arbitrate b = none → exec (.basinArbitrate b arrivals check) s = .next (finish s t)))) ∧
  (∀ (s : State) (b : Nat) (check : ReadCheck), s.core = true → b < 8 →
    let t : State := s.windowDue
    t.patrolOpen b = true → (t.basin b).patrol ≤ (t.now - (t.basin b).patrolStart) * patrolLen / 43200000000000 →
    let last : Bool := (t.basin b).patrol + 1 = patrolLen
    exec (.patrolScrub b check) s = .next (finish s ((t.updBasin b fun x => { x with
      patrolDone := true, mnt := x.mnt + 64, used := x.used + 64, patrol := if last then 0 else x.patrol + 1,
      patrolStart := if last then t.now else x.patrolStart }).eccRead
        (frameKey b ((t.basin b).patrol / 64) ((t.basin b).patrol % 64 * 64)) check))) ∧
  (∀ (s : State) (b : Nat) (rows : List Nat), s.core = true → b < 8 → (s.basin b).state = .ready →
    ((∀ t ∈ (s.basin b).reportAt, t + 1000000000 ≤ s.now) →
      let mine := rows.filter fun l => bits l 0 3 == b && locOk 0x08 l
      exec (.hbmEccReportRead b rows) s = .next (finish s ((mine.filter (s.basin b).reports.contains).foldl (fun s l =>
        s.rowLasting l (frameOwner s b (keyFrame ((rowFrames16 l).headD 0 * 4096))))
        (s.updBasin b fun x => { x with reports := mine, reportAt := some s.now })))) ∧
    (∀ t, (s.basin b).reportAt = some t → s.now < t + 1000000000 →
      exec (.hbmEccReportRead b rows) s = .next (finish s s))) ∧
  (∀ (s : State) (b : Nat) (rows again lanes : List Nat), s.core = true → b < 8 → (s.basin b).state = .train →
    (s.basin b).retraining = true →
    exec (.basinTrainDone b true rows again lanes) s = .next (finish s
      (((s.lanes b true lanes).updBasin b fun y => { y with trainTemp := y.temp }).basinReady b))) ∧
  (∀ (s : State) (b : Nat) (ok : Bool) (rows again lanes : List Nat), s.core = true → b < 8 →
    (s.boot.stage = .test ∨ s.boot.stage = .train) → (s.basin b).retraining = false →
    exec (.basinTrainDone b ok rows again lanes) s = .next (finish s (s.basinNext b ok rows again lanes).bringUp.refreshD)) ∧
  (∀ (s : State) (b : Nat) (ok : Bool) (rows again lanes : List Nat),
    let go (n : BasinState) (t : State) : State := t.updBasin b fun y => { y with state := n }
    ((s.basin b).state = .reset → s.basinNext b ok rows again lanes = go .init s) ∧
    ((s.basin b).state = .init → s.basinNext b ok rows again lanes = go .repair s) ∧
    ((s.basin b).state = .repair → s.basinNext b ok rows again lanes = go .lane (s.softRepairs b)) ∧
    ((s.basin b).state = .lane → s.basinNext b true rows again lanes = go .train (s.lanes b true lanes)) ∧
    ((s.basin b).state = .lane → s.basinNext b false rows again lanes = (s.lanes b false lanes).basinFails b) ∧
    ((s.basin b).state = .train → s.basinNext b true rows again lanes =
      s.updBasin b fun y => { y with state := .test, trainTemp := y.temp, attempts := 0 }) ∧
    ((s.basin b).state = .train → (s.basin b).attempts = 0 → s.basinNext b false rows again lanes =
      s.updBasin b fun y => { y with attempts := 1 }) ∧
    ((s.basin b).state = .train → (s.basin b).attempts ≠ 0 → s.basinNext b false rows again lanes = s.basinFails b) ∧
    ((s.basin b).state = .test → s.basinNext b ok rows again lanes = s.tested b rows again)) ∧
  (∀ (s : State) (b : Nat), s.core = true → b < 8 → (s.basin b).state ≠ .failed → (s.boot.stage = .ready ∨ s.boot.stage = .service) →
    (20 ≤ ((s.basin b).temp - (s.basin b).trainTemp).natAbs →
      exec (.basinRetrainTrigger b .temperature) s = .next (finish s (s.trigger b true))) ∧
    (∀ c, c ≠ .temperature → exec (.basinRetrainTrigger b c) s = .next (finish s (s.trigger b false)))) ∧
  (∀ (s : State) (b : Nat), s.core = true →
    ((s.basin b).psrDue = true → ((s.basin b).state = .drain ∨ (s.basin b).state = .ready) → exec (.basinDrainDone b) s = .next (finish s
      (s.updBasin b fun y => { y with psr := true, psrDue := false, state := .ready }).refreshD)) ∧
    ((s.basin b).psrDue = false → (s.basin b).state = .drain → (s.basin b).repairing.isSome = true →
      exec (.basinDrainDone b) s = .next (finish s (s.updBasin b fun y => { y with state := .repair }))) ∧
    ((s.basin b).psrDue = false → (s.basin b).state = .drain → (s.basin b).repairing = none →
      exec (.basinDrainDone b) s = .next (finish s (s.updBasin b fun y => { y with state := .train })))) ∧
  (∀ (s : State) (i t : Nat) (rep : Bool), s.core = true → s.nextBasin = some (i, t, rep) →
    (s.nextPort = none → exec .retrainStart s = .next (finish s (s.startBasin i rep))) ∧
    (∀ j u, s.nextPort = some (j, u) → t ≤ u → exec .retrainStart s = .next (finish s (s.startBasin i rep))) ∧
    (∀ j u, s.nextPort = some (j, u) → u < t → exec .retrainStart s = .next (finish s (s.startPort j)))) ∧
  (∀ (s : State) (b slot : Nat) (r : Req) (e : Defect) (bad : List Nat), s.core = true →
    (s.basin b).repairing = some (r, slot) → (s.basin b).state = .repair → s.rowEntry slot = some e →
    let lost := bad.filter fun k => affineBase ≤ k && (rowFrames16 e.loc).contains (k / 4096)
    let t : State := { s with mem := lost.foldl (fun m k => m.mark k true) s.mem }
    exec (.hbmRepairDone b true bad) s = .next (finish s
      (((t.appendDefect { e with state := 3 }).basinReady b).complete r ST.ok)) ∧
    exec (.hbmRepairDone b false bad) s = .next (finish s ((t.basinReady b).complete r ST.repairFailed)))

/-- R235, R256, R258 and Table 12-6: what a reading, taken every 100 µs, says: what a temperature T does to a Basin whose thresholds are lowered by θ. At 85 − θ its
refresh is doubled, at 95 − θ it is throttled and SLOW goes to the collective groups (R381), at 105 − θ it is bound for
self-refresh and the device is withdrawn. T below 95 − θ for 10 ms ends self-refresh, into THROTTLED; below 92 − θ for 1 ms
ends THROTTLED, below 82 − θ for 1 ms the doubled refresh, and below 80 − θ for 10 s the withdrawal. -/
def Obligations.BasinThermalRows : Prop :=
  (∀ (s : State) (b : Nat) (t : Int), s.core = true → b < 8 → (∀ w ∈ (s.basin b).readAt, w + 100000 ≤ s.now) →
    let u : State := s.updBasin b fun x =>
      { (x.heard t (s.prof.threshOffset.getD b 0) s.now (s.tooHot b t)).defer with readAt := some s.now }
    (s.tooHot b t = false → ((s.basin b).throttled = true ∨ (u.basin b).throttled = false) →
      exec (.basinThermalRead b t) s = .next (finish s (u.thermalChange b (s.basin b).thermal))) ∧
    (s.tooHot b t = false → (s.basin b).throttled = false → (u.basin b).throttled = true →
      exec (.basinThermalRead b t) s = .next (finish s ((u.basinSlows b).thermalChange b (s.basin b).thermal))) ∧
    (s.tooHot b t = true → (s.basin b).throttled = true →
      exec (.basinThermalRead b t) s = .next (finish s
        ((u.toSelfRefresh b (s.basin b).retraining).withdrawHot.thermalChange b (s.basin b).thermal))) ∧
    (s.tooHot b t = true → (s.basin b).throttled = false → ((u.toSelfRefresh b (s.basin b).retraining).basin b).throttled = true →
      exec (.basinThermalRead b t) s = .next (finish s
        (((u.toSelfRefresh b (s.basin b).retraining).basinSlows b).withdrawHot.thermalChange b (s.basin b).thermal)))) ∧
  (∀ (s : State) (b w : Nat) (t : Int), s.core = true → (s.basin b).readAt = some w → s.now < w + 100000 →
    exec (.basinThermalRead b t) s = .next (finish s s)) ∧
  (∀ (s : State) (b : Nat), s.core = true → b < 8 →
    let u : State := s.updBasin b fun x => x.cooled s.now
    let v : State := if heldFor (s.basin b).below80 10000000000 s.now && (s.basin b).withdrawn then u.basinReturns b else u
    exec (.basinThermalRelease b) s = .next (finish s (if (v.refreshD.basin b).thermal = (s.basin b).thermal then v.refreshD
      else (v.refreshD.thermalEvent b).advance))) ∧
  (∀ (x : Basin) (t th : Int) (now : Nat) (hot : Bool),
    ((x.heard t th now hot).doubled = true ↔ x.doubled = true ∨ 85 - th ≤ t) ∧
    ((x.heard t th now hot).throttled = true ↔ x.throttled = true ∨ 95 - th ≤ t) ∧
    (92 - th ≤ t → (x.heard t th now hot).below92 = none) ∧
    (t < 92 - th → (x.heard t th now hot).below92 = some (x.below92.getD now))) ∧
  (∀ (x : Basin) (now n : Nat),
    (x.psr = true → x.below95 = some n → ((x.cooled now).psr = false ↔ n + 10000000 ≤ now)) ∧
    (x.psr = true → x.below95 = some n → n + 10000000 ≤ now → (x.cooled now).throttled = true) ∧
    (x.psr = false → x.throttled = true → x.below92 = some n → ((x.cooled now).throttled = false ↔ n + 1000000 ≤ now)) ∧
    (x.psr = false → x.throttled = false → x.doubled = true → x.below82 = some n →
      ((x.cooled now).doubled = false ↔ n + 1000000 ≤ now)))

/-- R22, R81, R96, R97, R98, R233, R372: a port that sees a signal, from the start test on, trains through EQUALISE, FEC_LOCK and
COENO_INIT to UP; a state that times out fails its attempt; a drift of more than 100 ppm and 1 ms without a flit bring
a live port down to be trained again. -/
def Obligations.PortRows : Prop :=
  (∀ (s : State) (p : Nat), s.core = true → p < 24 → (s.port p).state = .detect → s.boot.stage ≠ .rails →
    s.boot.stage ≠ .secureBoot →
    exec (.passSignalDetect p) s = .next (finish s ((s.updPort p fun x => { x with tries := 0 }).trainOn p 0))) ∧
  (∀ (s : State) (p : Nat) (info : PeerInit), s.core = true → p < 24 →
    (∀ i, (s.port p).state = .equalise → s.laneSet p (s.port p).cand = some i →
      exec (.passTrainStateDone p (.ok info)) s = .next (finish s
        (s.updPort p fun y => { y with state := .fecLock, cand := i }))) ∧
    ((s.port p).state = .fecLock →
      exec (.passTrainStateDone p (.ok info)) s = .next (finish s (s.updPort p fun y => { y with state := .coenoInit }))) ∧
    ((s.port p).state = .coenoInit → (s.port p).authFailed = false → s.authOk info = true →
      exec (.passTrainStateDone p (.ok info)) s = .next (finish s (s.portUp p info))) ∧
    ((s.port p).state = .coenoInit → (s.port p).authFailed = false → s.authOk info = false →
      exec (.passTrainStateDone p (.ok info)) s = .next (finish s (s.authFails p)))) ∧
  (∀ (s : State) (p : Nat) (l : BitVec 8), s.core = true → p < 24 → ((s.port p).state = .equalise ∨ (s.port p).state = .fecLock) →
    exec (.passTrainStateDone p (.failed l)) s = .next (finish s (s.trainFails p l)) ∧
    exec (.passTrainTimeout p) s = .next (finish s (s.trainFails p 0))) ∧
  (∀ (s : State) (p : Nat) (ppm : Int), s.core = true → (s.port p).live = true → 100 < ppm.natAbs →
    exec (.passDriftRetrain p ppm) s = .next (finish s
      ((((s.resetMaster 2 p).updPort p fun x => { x with queued := some s.now }).portDown p).noteRoutes.refreshD))) ∧
  (∀ (s : State) (p : Nat), s.core = true → (s.port p).live = true → (s.port p).lastFlit + 1000000 ≤ s.now →
    exec (.portIdleTimeout p) s = .next (finish s
      ((((s.resetMaster 2 p).updPort p fun x => { x with queued := some s.now }).portDown p).noteRoutes.refreshD)))

/-- R354 to R360 (what FEC corrects is a free value, log entry 56): a flit whose check fails asks for a replay; one in
sequence is taken into its channel's buffer after its acknowledgement and credits; one out of sequence asks for a
replay, and one received before is dropped. A flit sent is a replayed one, a new one of the channel that the order of
R360 chooses, or an idle one; its bytes stand on the wire, in BLANK in the clear and under the CRC, else
under the session's key (log entry 160). -/
def Obligations.FlitRows : Prop :=
  (∀ (s : State) (p : Nat) (f : Flit), s.core = true → (s.port p).live = true →
    let b : State := (s.flitHeard p).flitAcked p f
    (f.checkOk = false → exec (.flitReceive p f) s = .next (finish s ((s.flitHeard p).askReplay p))) ∧
    (f.checkOk = true → (f.idle = true ∨ (b.port p).live = false) → exec (.flitReceive p f) s = .next (finish s b)) ∧
    (f.checkOk = true → f.idle = false → (b.port p).live = true → f.seq % 4096 = (b.port p).rxNext →
      exec (.flitReceive p f) s = .next (finish s (b.flitTaken p f))) ∧
    (f.checkOk = true → f.idle = false → (b.port p).live = true → f.seq % 4096 ≠ (b.port p).rxNext →
      exec (.flitReceive p f) s = .next (finish s
        (if coveredBy ((b.port p).rxNext + 4095) f.seq then b else b.askReplay p)))) ∧
  (∀ (s : State) (p : Nat), s.core = true →
    let t : State := s.windowDue
    (t.port p).live = true →
    let idle : Flit := { seq := (t.port p).txSeq, ack := 0, nak := false, vc := 0, idle := true }
    (∀ q, (t.port p).replayFrom = some q → exec (.flitSend p) s = .next (finish s ((t.updPort p fun y => { y with
      replayFrom := (((t.port p).replay.dropWhile (·.seq != q)).drop 1).head?.map (·.seq) }).left p
        (((t.port p).replay.dropWhile (·.seq != q)).headD idle)))) ∧
    ((t.port p).replayFrom = none → 1024 ≤ (t.port p).replay.length → exec (.flitSend p) s = .next (finish s (t.left p idle))) ∧
    (∀ vc, (t.port p).replayFrom = none → (t.port p).replay.length < 1024 → t.nextVc p = some vc →
      exec (.flitSend p) s = .next (finish s (t.newFlit p vc))) ∧
    ((t.port p).replayFrom = none → (t.port p).replay.length < 1024 → t.nextVc p = none →
      exec (.flitSend p) s = .next (finish s (t.left p idle)))) ∧
  (∀ (s : State) (p : Nat) (f : Flit), s.left p f = (s.updPort p fun x => { x with
      wire := s.flitBytes p { f with
        ack := (x.rxNext + 4095) % 4096, nak := x.nakDue, keyPhase := x.keyPhase, crVc := x.creditVc,
        credits := x.owed.getD x.creditVc 0 },
      nakDue := false, owed := updAt x.owed x.creditVc fun _ => 0 }).countFlit p) ∧
  (∀ (s : State) (p : Nat) (f : Flit), s.sec.lifecycle = 0 →
    s.flitBytes p f = flitHead f ++ padTo flitPayload f.payload ++
      leBytes 8 (Config.crc64 (flitHead f ++ padTo flitPayload f.payload)).toNat) ∧
  (∀ (s : State) (p : Nat) (f : Flit), s.sec.lifecycle ≠ 0 →
    let x : Port := s.port p
    let nonce : BitVec 96 := Config.portSalt x.keySession p x.keyNumber ++ BitVec.ofNat 64 x.keyCount
    s.flitBytes p f = flitHead f ++ padTo flitPayload
        (Config.gcmText x.keySession x.keyNumber p nonce (flitHead f) (padTo flitPayload f.payload)) ++
      leBytes 8 (Config.gcmTag x.keySession x.keyNumber p nonce (flitHead f) (padTo flitPayload f.payload)).toNat)

/-- R184, R222, R233, R251, R361, R362, R363, R369: a request of another chip that may be served is applied once and answered; a
response releases its request's tag and does what it answers, but for a read given up by a reset or overtaken by a wait; a refusal faults the job, or waits 10 µs where the
table was full (which wire fields carry these is the model's, log entry 22). -/
def Obligations.RequestRows : Prop :=
  ∀ (s : State) (p : Nat) (g : Msg), Delivered p g s →
    let t : State := s.taken1 p g
    (g.typ = mRdReq → t.denies g = none → t.retPlains g = [] → t.servable g = true →
      exec (.rdReq p g) s = .next (finish s (s.onward p g ((t.unholdReq g.src g.tag).serveMem g)))) ∧
    (g.typ = mWrReq → t.dedupOf g = none → (∀ h ∈ t.valley.heldReqs, ¬(h.1.src = g.src ∧ h.1.tag = g.tag)) →
      t.valley.dedup.length < dedupSize → t.denies g = none → t.retPlains g = [] → t.servable g = true →
      exec (.wrReq p g) s = .next (finish s (s.onward p g ((t.unholdReq g.src g.tag).serveMem g)))) ∧
    (∀ d, g.typ = mWrReq → t.dedupOf g = some d →
      exec (.wrReq p g) s = .next (finish s (s.onward p g (t.send d.response)))) ∧
    (g.typ = mSyncOp → t.dedupOf g = none → (∀ h ∈ t.valley.heldReqs, ¬(h.1.src = g.src ∧ h.1.tag = g.tag)) →
      t.valley.dedup.length < dedupSize →
      exec (.syncOp p g) s = .next (finish s (s.onward p g (t.syncReq g).advance))) ∧
    (∀ o, g.typ = mRdRsp → t.outst g.src g.tag = some o → o.msg.typ = mRdReq →
      let u : State := t.releaseTag g.src g.tag
      let v : State := u.fillView g.src o.msg.addr (padTo (o.msg.len * 64) g.data)
      ((u.absorbs o = true ∨ o.stale = true) → exec (.rdRsp p g) s = .next (finish s (s.onward p g u))) ∧
      (u.absorbs o = false → o.stale = false → g.ext = none → exec (.rdRsp p g) s = .next (finish s (s.onward p g v))) ∧
      (∀ m b i d, u.absorbs o = false → o.stale = false → g.ext = some (m, b) → m ≠ 0 → o.job = some (i, d) →
        exec (.rdRsp p g) s = .next (finish s (s.onward p g (v.faultJob i 0x44 d).advance)))) ∧
    (∀ o, g.typ = mWrAck → t.outst g.src g.tag = some o →
      exec (.wrAck p g) s = .next (finish s (s.onward p g (t.releaseTag g.src g.tag)))) ∧
    (∀ o i d, g.typ = mSyncRsp → t.outst g.src g.tag = some o → o.job = some (i, d) → msgNat o.msg 0 1 = 0 →
      exec (.syncRsp p g) s = .next (finish s (s.onward p g ((t.releaseTag g.src g.tag).satisfied i g.src (msgNat o.msg 4 4)
        (msgNat g 3 1) (msgNat o.msg 8 8) (resultOf (msgNat g 0 2)) (msgNat g 2 1 == 1)).advance))) ∧
    (g.typ = mRefuse → g ∉ s.valley.selfRsp → exec (.refuse p g) s = .next (finish s (s.onward p g (t.refused g)))) ∧
    (g.typ = mHold → exec (.hold p g) s = .next (finish s
      (s.onward p g (t.updOut g.src g.tag fun o => { o with since := t.now })))) ∧
    (g.typ = mRelease → exec (.release p g) s = .next (finish s (s.onward p g
      { t with valley := { t.valley with dedup := t.valley.dedup.filter fun d => !(d.src == g.src && d.tag == g.tag) } })))

/-- R222, R361, R362, R363, R365: the timers of requests. A held request is applied once it can be, and answered HOLD every
2 ms until then; an unanswered request is sent again every 4 ms, and its chip is lost at the sixteenth expiry; a dedup
entry goes after 100 ms; a request refused for a full table is sent again 10 µs later; refusals of R368 come back to
the requester. -/
def Obligations.RequestTimerRows : Prop :=
  (∀ (s : State) (src tag t : Nat) (g : Msg), s.core = true →
    s.valley.heldReqs.find? (fun h => h.1.src == src && h.1.tag == tag) = some (g, t) →
    (g.typ ≠ mSyncOp → s.servable g = true → s.retPlains g = [] → exec (.holdTimer src tag) s = .next (finish s (s.memReq g))) ∧
    ((g.typ = mSyncOp ∨ s.servable g = false ∨ s.retPlains g ≠ []) → t + 2000000 ≤ s.now →
      exec (.holdTimer src tag) s = .next (finish s (State.respond { s with valley := { s.valley with
        heldReqs := s.valley.heldReqs.map fun (h : Msg × Nat) =>
          if h.1.src == src && h.1.tag == tag then (h.1, s.now) else h } } g mHold [])))) ∧
  (∀ (s : State) (dst tag : Nat) (o : Outstanding), s.core = true → s.outst dst tag = some o → o.since + 4000000 ≤ s.now →
    (o.expiries < 15 → exec (.requestTimerExpiry dst tag) s = .next (finish s
      ((s.updOut dst tag fun y => { y with expiries := y.expiries + 1, since := s.now }).send o.msg))) ∧
    (15 ≤ o.expiries → exec (.requestTimerExpiry dst tag) s = .next (finish s (s.declareLost dst 3)))) ∧
  (∀ (s : State) (src tag : Nat), s.core = true → exec (.dedupEntryExpiry src tag) s = .next (finish s
    { s with valley := { s.valley with dedup := s.valley.dedup.filter fun d =>
        !(d.src == src && d.tag == tag && decide (d.made + 100000000 ≤ s.now)) } })) ∧
  (∀ (s : State) (dst tag t : Nat) (o : Outstanding), s.core = true → s.outst dst tag = some o → o.resendAt = some t → t ≤ s.now →
    exec (.dedupFullResend dst tag) s = .next (finish s
      ((s.updOut dst tag fun y => { y with resendAt := none, since := s.now }).send o.msg))) ∧
  (∀ (s : State) (p : Nat) (g : Msg), s.core = true → g.typ = mRefuse → g ∈ s.valley.selfRsp → exec (.refuse p g) s =
    .next (finish s (State.refused { s with valley := { s.valley with selfRsp := s.valley.selfRsp.erase g } } g)))

/-- R375 to R383 (the layouts of COLL messages are the model's, log entry 31): data of a member is staged once and the
collective goes as far as it can; READY, SLOW, WITHDRAWN and ABORT of a member change the group; a collective that has
not ended by its timeout and its extension is aborted everywhere, naming the lowest-ranked member whose data is still to come. -/
def Obligations.CollectiveRows : Prop :=
  (∀ (s : State) (p : Nat) (g : Msg) (x : Group), Delivered p g s →
    let t : State := s.taken1 p g
    (∀ r, g.typ = mCollData → t.groupBy g.part (msgNat g 0 4) = some x → x.rankOf g.src = some r → x.aborted = none →
      (∀ q ∈ x.staged, ¬(q.seq = msgNat g 4 4 ∧ q.rank = r ∧ q.off = msgNat g 8 8)) → x.nextSeq ≤ msgNat g 4 4 →
      x.colls.find? (·.seq == msgNat g 4 4) = none →
      exec (.collData p g) s = .next (finish s (s.onward p g (t.updGroup x.index fun z => { z with staged := z.staged ++
        [{ seq := msgNat g 4 4, rank := r, params := msgNat g 24 16, off := msgNat g 8 8,
           data := (g.data.drop 64).take (msgNat g 16 8) }] }).collSteps))) ∧
    (g.typ = mCollCtrl → msgNat g 0 1 = 0 → t.groupBy g.part (msgNat g 4 4) = some x →
      exec (.collReady p g) s = .next (finish s (s.onward p g
        (t.updGroup x.index fun y => { y with readyFrom := (y.readyFrom ++ [g.src]).dedup }).collSteps))) ∧
    (g.typ = mCollCtrl → msgNat g 0 1 = 0 → t.groupBy g.part (msgNat g 4 4) = none →
      exec (.collReady p g) s = .next (finish s (s.onward p g
        { t with coll := { t.coll with early := (t.coll.early ++ [(g.part, msgNat g 4 4, g.src)]).dedup } }))) ∧
    (g.typ = mCollCtrl → msgNat g 0 1 = 1 → t.groupBy g.part (msgNat g 4 4) = some x → g.src ∈ x.members →
      x.colls.any (fun c => c.seq == msgNat g 8 4 && c.started.isSome) = true →
      exec (.collSlow p g) s = .next (finish s (s.onward p g
        (t.updColl x.index (msgNat g 8 4) fun c => { c with ext := min 2000 (c.ext + msgNat g 16 4) })))) ∧
    (g.typ = mCollCtrl → msgNat g 0 1 = 2 → t.groupBy g.part (msgNat g 4 4) = some x → g.src ∈ x.members →
      exec (.collWithdrawn p g) s = .next (finish s (s.onward p g (t.abortGroup x.index (msgNat g 12 2) 1)).advance)) ∧
    (g.typ = mCollCtrl → msgNat g 0 1 = 3 → t.groupBy g.part (msgNat g 4 4) = some x → g.src ∈ x.members →
      exec (.collAbort p g) s = .next (finish s
        (s.onward p g (t.abortGroup x.index (msgNat g 12 2) (msgNat g 14 1))).advance))) ∧
  (∀ (s : State) (i : Nat) (x : Group) (c : Collective), s.core = true → s.group? i = some x →
    x.colls.find? (fun c => c.started.any fun t => t + (x.timeout + c.ext) * 1000000 ≤ s.now) = some c →
    let late : Option Nat := match (s.stream? c.s).bind (·.head?) with
      | none => none
      | some _ => (List.range x.members.length).find? fun r =>
        awaited (((s.runAt c.s c.d).map Run.desc).getD 0) (s.runTensor c.s c.d 16).count x.rank r x.members.length
          (s.runTensor c.s c.d 16).fmt x c.seq
    exec (.collTimeout i) s = .next (finish s (s.abortAll x c.seq (x.members.getD (late.getD x.rank) s.chip) 0).advance))

/-- R32, R366, R371, R373, R374 (the layouts are the model's, log entry 22): heartbeats go out on every UP port every 100 µs and record
the peer's state; JOIN, LEAVE, LOSS and OWNER_NOTICE do what their rules say; a chip without a route for 5 ms is
lost. -/
def Obligations.PeerRows : Prop :=
  (∀ s : State, s.core = true →
    ((∀ t ∈ s.valley.beatAt, s.now < t ∨ t + 100000 ≤ s.now) → exec .heartbeatSend s = .next (finish s
      ((List.range 24).foldl (fun s p => if (s.port p).live then s.sendPort p (s.beat p) else s)
        { s with valley := { s.valley with beatAt := some s.now } }))) ∧
    (∀ t, s.valley.beatAt = some t → t ≤ s.now → s.now < t + 100000 → exec .heartbeatSend s = .next (finish s s))) ∧
  (∀ (s : State) (p : Nat) (g : Msg), Delivered p g s →
    let t : State := s.taken1 p g
    let heard : State := t.updPort p fun x => { x with
      echo := some (msgNat g 0 8, t.now), peerRoot := msgNat g 24 2, peerHops := msgNat g 26 1, peerState := msgNat g 27 1 }
    (g.typ = mHeartbeat → t.valley.joined = false →
      exec (.heartbeat p g) s = .next (finish s (s.onward p g heard))) ∧
    (g.typ = mHeartbeat → t.valley.joined = true → msgNat g 8 8 ≠ 0 → msgNat g 16 8 ≠ 0 → t.now ≤ msgNat g 8 8 + 1000000 →
      heard.timeRoot ≠ heard.chip → heard.parent = some p →
      exec (.heartbeat p g) s = .next (finish s (s.onward p g (heard.follow (beatOffset g t.now))))) ∧
    (g.typ = mJoin → exec (.join p g) s = .next (finish s (s.onward p g (t.join p g)))) ∧
    (g.typ = mLeave → exec (.leave p g) s = .next (finish s (s.onward p g (t.declareLost g.src 2)))) ∧
    (g.typ = mLoss → msgNat g 0 2 % 4096 ≠ t.chip →
      exec (.loss p g) s = .next (finish s (s.onward p g (t.declareLost (msgNat g 0 2 % 4096) 1)))) ∧
    (g.typ = mLoss → msgNat g 0 2 % 4096 = t.chip → exec (.loss p g) s = .next (finish s (s.onward p g t.expel))) ∧
    (g.typ = mOwnerNotice → g.dst = t.chip → exec (.ownerNotice p g) s = .next (finish s (s.onward p g
      (t.ownersReset (· == ⟨g.src, msgNat g 4 1, msgNat g 0 4⟩) (msgNat g 5 1)).advance))) ∧
    (g.typ = mOwnerNotice → g.dst ≠ t.chip → exec (.ownerNotice p g) s = .next (finish s (s.onward p g (t.forward g))))) ∧
  (∀ (s : State) (chip t : Nat) (r : Route), s.core = true → s.route chip = some r → r.downSince = some t → t + 5000000 ≤ s.now →
    exec (.noRouteTimeout chip) s = .next (finish s (s.declareLost chip 0)))

/-- R386 to R401 (a picture's own quantiser is free, log entry 9): at a latch a frame takes the layers' content that is ready, and an
unstarted frame before it is skipped, as is the new one where a core is lost; a frame's intra refresh and its quantisers are set as
its encode begins;
the grace of a late layer ends; the compositor composes the next frame; a media core starts a row of the context whose
turn it is, and a row ends. -/
def Obligations.MediaRows : Prop :=
  (∀ (s : State) (i k : Nat) (x : Enc), s.core = true → s.enc? i = some x → x.latchAt s.now = some k → x.openAt ≤ s.now →
    x.lastLatch ≠ some s.now → x.closing = none →
    let t : State := (List.range 8).foldl (fun s n => s.judge i n s.now)
      (s.updEnc i fun y => ({ y.settle s.now with lastLatch := some s.now } : Enc))
    ∀ y, t.enc? i = some y →
      let f : Frame := { stamp := t.now, k := k % 2 ^ 32, stage := if y.undecided then 0 else 1, key := y.keyDue }
      let u : State := t.updEnc i fun z => ({ z with keyDue := false, waiting := if y.coreLost then none else some f } : Enc)
      (y.coreLost = false → y.waiting = none → exec (.frameLatch i) s = .next (finish s u)) ∧
      (∀ w, y.coreLost = false → y.waiting = some w → exec (.frameLatch i) s = .next (finish s (u.skip i w))) ∧
      (y.coreLost = true → y.waiting = none → exec (.frameLatch i) s = .next (finish s (u.skip i f))) ∧
      (∀ w, y.coreLost = true → y.waiting = some w → exec (.frameLatch i) s = .next (finish s ((u.skip i w).skip i f)))) ∧
  (∀ (s : State) (i : Nat), s.core = true → exec (.layerGraceExpiry i) s = .next (finish s (s.judgeFrame i))) ∧
  (∀ (s : State) (x : Enc), s.core = true →
    let t : State := s.media.encs.foldl (fun s x => s.judgeFrame x.index) s
    t.nextCompose = some x →
    let u : State := (t.store x.buffer (t.composed x)).updEnc x.index fun y =>
      { y with waiting := y.waiting.map fun w => { w with stage := 2 } }
    exec .composeFrame s = .next (finish s { u with fresh := u.fresh + 1 })) ∧
  (∀ (s : State) (core : Nat) (x : Enc), s.core = true → core < 12 →
    let t : State := s.windowDue
    (t.media.cores.getD core {}).row = none → bit t.boot.mediaOk.toNat core = true → t.nextEnc core = some x →
    exec (.mediaRowStart core) s = .next (finish s ((t.updEnc x.index fun y =>
      let z : Enc := (if y.frame.isSome then y else
        ({ y with frame := y.waiting.map y.order, waiting := none, rowsLeft := y.partRows } : Enc))
      { z with rowsLeft := (match z.partOf core with
        | some i => updAt z.rowsLeft i (· - 1)
        | none => z.rowsLeft) }).updCore core fun c => { c with row := some x.index, void := false }))) ∧
  (∀ (s : State) (core : Nat) (x : Dec), s.core = true → 12 ≤ core → core < 16 →
    let t : State := s.windowDue
    (t.media.cores.getD core {}).row = none → bit t.boot.mediaOk.toNat core = true → t.nextDec core = some x →
    exec (.mediaRowStart core) s = .next (finish s (t.updCore core fun c => { c with row := some (2048 + x.index), void := false }))) ∧
  (∀ (x : Enc) (f : Frame), (x.order f).refresh = (if f.key then (0, x.ctuCols) else if x.irPeriod = 0 then (0, 0)
      else (x.sweep * x.ctuCols / x.irPeriod, (x.sweep + 1) * x.ctuCols / x.irPeriod)) ∧
    (x.order f).qp.length = x.ctuCols * ctuRows x.height) ∧
  (∀ (s : State) (core n : Nat) (r : RowEnd) (x : Enc), s.core = true → (s.media.cores.getD core {}).row = some n → n < 2048 →
    (s.media.cores.getD core {}).void = false → s.enc? n = some x →
    exec (.mediaRowEnd core r) s = .next (finish s ((s.updCore core fun c =>
      c.debit ((x.partOf core).bind fun i => x.resv[i]?) (rowTime r)).pictureEnds n))) ∧
  (∀ (s : State) (core n : Nat) (d : Dec), s.core = true → (s.media.cores.getD core {}).row = some n → 2048 ≤ n →
    (s.media.cores.getD core {}).void = false → s.dec? (n - 2048) = some d →
    (∀ time used part, exec (.mediaRowEnd core (.row time used part)) s = .next (finish s
      ((s.updCore core fun c => c.debit d.resv.head? (rowTime (.row time used part))).decRow d used part))) ∧
    (∀ time w h ten rap used order out luma chroma, exec (.mediaRowEnd core (.frame time w h ten rap used order out luma chroma)) s =
      .next (finish s ((s.updCore core fun c =>
        c.debit d.resv.head? (rowTime (.frame time w h ten rap used order out luma chroma))).decFrame
        d w h ten rap used order out luma chroma))) ∧
    (∀ time cause off x y, exec (.mediaRowEnd core (.damage time cause off x y)) s = .next (finish s
      ((s.updCore core fun c => c.debit d.resv.head? (rowTime (.damage time cause off x y))).decDamage d cause off x y))))

/-- R85, R250, R251, R441, R442, R446: a detected error that does not come again is counted and logged as transient; one
that comes again is lasting: its unit leaves service and joins the defect record. TEST_RUN completes with 0 for no
failure, 1 for one that did not come again and 2 for one that did. -/
def Obligations.ErrorRows : Prop :=
  (∀ (s : State) (typ loc : Nat), s.core = true → typ ∈ [0x02, 0x03, 0x04, 0x05, 0x0C] → locOk typ loc = true →
    exec (.sramEccError typ loc .clean) s = .next (finish s s) ∧
    exec (.sramEccError typ loc (.correctable false)) s = .next (finish s (s.transient typ loc)) ∧
    exec (.sramEccError typ loc (.uncorrectable false)) s = .next (finish s (s.transient typ loc)) ∧
    exec (.sramEccError typ loc (.correctable true)) s = .next (finish s (s.lasting typ 1 loc)) ∧
    exec (.sramEccError typ loc (.uncorrectable true)) s = .next (finish s ((s.lasting typ 1 loc).sramLost typ loc))) ∧
  (∀ (s : State) (loc : Nat), s.core = true → locOk 0x07 loc = true →
    exec (.saddleParityError loc false) s = .next (finish s (s.transient 0x07 loc)) ∧
    exec (.saddleParityError loc true) s = .next (finish s (s.lasting 0x07 2 loc))) ∧
  (∀ (s : State) (h u : Nat), s.core = true → h < 32 → u < 7 → bit s.boot.hpOk.toNat h = true →
    exec (.engineCheckError h u false) s = .next (finish s (s.transient (engineLoc h u).1 (engineLoc h u).2)) ∧
    (let t : State := (s.lasting (engineLoc h u).1 1 (engineLoc h u).2 (2 ^ h)).faultAt h 0x48
     exec (.engineCheckError h u true) s = .next (finish s (match halfOwner t h with
       | some p => if (t.workHps p).isEmpty then t.selfReset p else t
       | none => t)))) ∧
  (∀ (s : State) (core : Nat), s.core = true → core < 16 → bit s.boot.mediaOk.toNat core = true →
    (s.media.cores.getD core {}).row = none →
    exec (.mediaCoreCheckError core false) s = .next (finish s (s.transient 0x0B core)) ∧
    (let t : State := (s.lasting 0x0B 1 core).refreshD
     let u : State := t.media.encs.foldl (fun s x => s.moveEnc core x) t
     exec (.mediaCoreCheckError core true) s = .next (finish s (u.media.decs.foldl (fun s x => s.moveDec core x) u).advance))) ∧
  (∀ (s : State) (r : Req) (typ loc : Nat) (rest : List (Req × Nat × Nat)) (again : Bool), s.core = true →
    s.boot.tests = (r, typ, loc) :: rest →
    let t : State := { s with boot := { s.boot with tests := rest } }
    exec (.testRunDone false again) s = .next (finish s (t.complete r ST.ok 0)) ∧
    exec (.testRunDone true false) s = .next (finish s ((t.transient typ loc).complete r ST.ok 1)) ∧
    exec (.testRunDone true true) s = .next (finish s ((t.lasting typ 5 loc).complete r ST.ok 2)))

/-! ### Lolin commands -/

/-- R151, R153, R154, R155, R158: the frame of every Lolin command row, whatever its own check and effect. A command that waits or is
committed, whose turn has not come in its ring or among the mailboxes, or while no control core interprets commands is left alone; the
first of the checks that fails answers with its status; a command that passes has its effect, kept in the journal where a CP exception
comes before its completion; after each, entries that no row stands for and whose turn has come are refused. An entry that is not the
next of its ring, or that the mailbox does not admit, is not taken. -/
def Obligations.CommandFrame : Prop :=
  ∀ (op m : Nat) (c : Cmd) (s : State) (t : Taken) (chk : State → Block → Taken → Option (Nat × Nat))
    (eff : State → Req → Taken → State),
    (s.taken ⟨m, c.reqId⟩ = some t → (t.waiting = true ∨ t.done.isSome = true ∨ sameEntry t.entry (entryOf c op) = false ∨
      s.cpUp = false ∨ s.halts = 15 ∨ (s.mb m).inTurn c.reqId = false ∨ s.inTime m t.stamp = false) → lolin op m c s chk eff = s) ∧
    (∀ st res, s.taken ⟨m, c.reqId⟩ = some t → s.notYet m c (entryOf c op) t = false → precheck s m (entryOf c op) = some (st, res) →
      lolin op m c s chk eff = (s.complete ⟨m, c.reqId⟩ st res).refuseDue m) ∧
    (∀ st res, Accepted op m c s t → chk s (entryOf c op) t = some (st, res) →
      lolin op m c s chk eff = (s.complete ⟨m, c.reqId⟩ st res).refuseDue m) ∧
    (Accepted op m c s t → chk s (entryOf c op) t = none → lolin op m c s chk eff = (eff s ⟨m, c.reqId⟩ t).refuseDue m) ∧
    (c.cut = true → s.taken ⟨m, c.reqId⟩ = some t → s.notYet m c (entryOf c op) t = false → precheck s m (entryOf c op) = none →
      chk s (entryOf c op) t = none →
      lolin op m c s chk eff = (s.cutShort ⟨m, c.reqId⟩ (eff · ⟨m, c.reqId⟩ t)).refuseDue m) ∧
    (s.taken ⟨m, c.reqId⟩ = none → ((s.mb m).posted = false ∨ s.admits m (entryOf c op) = false) → lolin op m c s chk eff = s) ∧
    (∀ u : State, s.taken ⟨m, c.reqId⟩ = none → s.present ⟨m, c.reqId⟩ (entryOf c op) = u →
      u.taken ⟨m, c.reqId⟩ = some t → lolin op m c s chk eff = lolin op m c u chk eff)

/-- R70, R71, R72, R87, R108, R109, R160, R163: DEV_INFO, DEV_CAPS and DEV_TIME_GET answer their values (the time is the stamp of
TAKEN); DEV_RESET_WARM completes, and a WARM is due; DEV_POWER_STATE begins an entry, waits while another is under way and wakes a chip in QSC first, where QSC itself completes
at once; PROFILE_APPLY and PROFILE_WRITE set
the pending index and begin flash work; PROFILE_READ and TEST_DEFECTS_READ fill their slot. The model's own: INDEX 3 beside VALID 0 at index 0xFF, log entry 151. -/
def Obligations.DeviceCommands : Prop :=
  ∀ (m : Nat) (c : Cmd) (s : State) (t : Taken),
    let r : Req := ⟨m, c.reqId⟩
    let p := eParam t.entry
    (Accepted 0x0101 m c s t → p 0 0 8 = 0 → exec (.devInfo m c) s = .next (finish s (State.refuseDue (s.complete r ST.ok
      (0x0760 + 0x01 * 2 ^ 16 + s.sec.lifecycle * 2 ^ 24 + s.fw.version * 2 ^ 32)) m))) ∧
    (Accepted 0x0101 m c s t → p 0 0 8 ≠ 0 → exec (.devInfo m c) s = .next (finish s (State.refuseDue (s.complete r ST.ok s.sec.serial.toNat) m))) ∧
    (Accepted 0x0102 m c s t → exec (.devCaps m c) s = .next (finish s (State.refuseDue (s.complete r ST.ok (s.capsPage (p 0 0 8))) m))) ∧
    (Accepted 0x0103 m c s t → exec (.devTimeGet m c) s = .next (finish s (State.refuseDue (s.complete r ST.ok t.stamp) m))) ∧
    (Accepted 0x0104 m c s t → s.ladderLevel < 2 →
      let u : State := s.complete r ST.ok
      exec (.devResetWarm m c) s = .next (finish s (State.refuseDue { u with power := { u.power with warmDue := true } } m))) ∧
    (Accepted 0x0105 m c s t → s.powerHeld c.params.toNat = false → s.blocked = 0 →
      (p 0 0 2 = 1 ∧ s.power.chip ≠ .qsc ∨ p 0 0 2 = 2) → exec (.devPowerState m c) s = .next (finish s
      (State.refuseDue (State.wait { s with power := { s.power with entry := some (goalOf (p 0 0 2), some r) } } r) m))) ∧
    (Accepted 0x0105 m c s t → s.powerHeld c.params.toNat = false → s.blocked = 0 → p 0 0 2 = 1 → s.power.chip = .qsc →
      exec (.devPowerState m c) s = .next (finish s (State.refuseDue (s.complete r ST.ok) m))) ∧
    (s.core = true → s.taken r = some t → s.powerHeld c.params.toNat = true →
      exec (.devPowerState m c) s = .next (finish s (if s.power.entry.isNone then s.wake else s))) ∧
    (Accepted 0x0105 m c s t → s.powerHeld c.params.toNat = false → s.blocked = 0 → p 0 0 2 ≠ 1 → p 0 0 2 ≠ 2 →
      let u : State := s.complete r ST.ok
      let v : State := { u with power := { u.power with entry := some (.off, none) } }
      exec (.devPowerState m c) s = .next (finish s (State.refuseDue (v.linkLost.seqDown v.enabledDown .off) m))) ∧
    (Accepted 0x0201 m c s t → chkProfileApply s (entryOf c 0x0201) t = none →
      let u : State := { s with boot := { s.boot with pendingIdx := if p 0 0 8 < 4 then some (p 0 0 8) else none } }
      (p 1 0 1 = 0 → exec (.profileApply m c) s = .next (finish s (State.refuseDue (u.complete r ST.ok) m))) ∧
      (p 1 0 1 ≠ 0 → exec (.profileApply m c) s = .next (finish s
        (State.refuseDue (u.addWork r (.override r (decide (p 0 0 8 < 4)) (p 0 0 8 % 4))) m)))) ∧
    (∀ a n, Accepted 0x0202 m c s t → s.slotArea r t = some (a, n) → exec (.profileWrite m c) s = .next (finish s
      (State.refuseDue (match chkProfileWrite m s (entryOf c 0x0202) t with
        | some (st, res) => s.complete r st res
        | none => (s.eraseFlash (profileBase (p 0 0 2)) 0x10000).addWork r (.profile r (p 0 0 2) a 0)) m))) ∧
    (Accepted 0x0203 m c s t → t.slot.isSome = true → exec (.profileRead m c) s = .next (finish s
      (State.refuseDue ((s.slotWrite r t (chunk (s.flashByte (profileBase (p 0 0 2))) 0 0x10000)).complete r ST.ok 0x10000) m))) ∧
    (∀ a n, Accepted 0x0E01 m c s t → t.slot.isSome = true → s.slotArea r t = some (a, n) →
      let l := ((s.defectUsed.filter fun i => p 4 0 12 ≤ i && (s.defectAt i).isSome).take (n / 16))
      exec (.testDefectsRead m c) s = .next (finish s
        (State.refuseDue ((s.slotWrite r t (l.flatMap fun i => chunk (s.defectSlot i) 0 16)).complete r ST.ok l.length) m)))

/-- R161, R165, R210, R211, R216: PART_CREATE makes its partition and waits until its Plains run; PART_RESET and PART_DESTROY wait
for the reset; PART_QUERY, ACCT_READ and ACCT_MODE_SET answer at once. -/
def Obligations.PartitionCommands : Prop :=
  ∀ (m : Nat) (c : Cmd) (s : State) (t : Taken),
    let r : Req := ⟨m, c.reqId⟩
    let p := eParam t.entry
    let q := hObj (eTarget t.entry)
    (Accepted 0x0301 m c s t → chkPartCreate s (entryOf c 0x0301) t = none →
      let u : State := s.makePart (p 32 0 5) (cfgOf t.entry)
      let v : State := (u.zeroHalves (u.hpsOf (p 32 0 5))).updPart (p 32 0 5) fun x => { x with createReq := some r }
      exec (.partCreate m c) s = .next (finish s
        (State.refuseDue ((((v.plainsOwned (p 32 0 5)).foldl (fun s q => s.wakePlain q) v).wait r).createReady (p 32 0 5)) m))) ∧
    (Accepted 0x0302 m c s t → exec (.partDestroy m c) s = .next (finish s (State.refuseDue ((s.wait r).destroyPart q [r]) m))) ∧
    (Accepted 0x0303 m c s t → exec (.partReset m c) s = .next (finish s
      (State.refuseDue ((((s.tdiError (q + 1)).wait r).updPart q fun x => { x with resetReqs := x.resetReqs ++ [r] }).partReset q) m))) ∧
    (Accepted 0x0304 m c s t → exec (.partQuery m c) s = .next (finish s (State.refuseDue (s.complete r ST.ok
      ((s.part q).cfg.hpMask + (s.part q).state.code * 2 ^ 32 + b2n (s.part q).cfg.confidential * 2 ^ 34 +
        b2n ((s.fn (q + 1)).tdi == 1 || (s.fn (q + 1)).tdi == 2) * 2 ^ 35 +
        (s.streams.filter fun y => y.owner == q && y.state == .opened).length * 2 ^ 36)) m))) ∧
    (∀ x, Accepted 0x0B01 m c s t → s.heldAdmin m c = false → chkAcctRead m s (entryOf c 0x0B01) t = none → m ≠ 0 →
      s.streamOf (mbPart m) (eTarget t.entry) = some x →
      exec (.acctRead m c) s = .next (finish s (State.refuseDue (s.complete r ST.ok (x.counters.getD (p 0 0 8) 0)) m))) ∧
    (Accepted 0x0B01 m c s t → s.heldAdmin m c = false → chkAcctRead m s (entryOf c 0x0B01) t = none →
      (m = 0 ∨ s.streamOf (mbPart m) (eTarget t.entry) = none) →
      exec (.acctRead m c) s = .next (finish s (State.refuseDue (s.complete r ST.ok (s.partTotal (acctPart m t.entry) (p 0 0 8))) m))) ∧
    (Accepted 0x0B02 m c s t → s.heldAdmin m c = false → chkAcctModeSet s (entryOf c 0x0B02) t = none → exec (.acctModeSet m c) s = .next (finish s
      (State.refuseDue ((s.updPart q fun x => { x with acctCount := p 0 0 1 == 1 }).complete r ST.ok) m)))

/-- R61, R166, R167, R168, R188, R192, R193, R199, R269, R270, R271: STREAM_OPEN makes a stream and, with KV, draws its table pages;
STREAM_SUBMIT admits a job that passes validation and the lateness test, counts those it refuses, and first wakes a Plain in RET that
holds its descriptors; STREAM_CANCEL
removes queued jobs; STREAM_CLOSE begins the stream's end or joins a teardown under way; STREAM_QUERY answers its state. -/
def Obligations.StreamCommands : Prop :=
  ∀ (m : Nat) (c : Cmd) (s : State) (t : Taken),
    let r : Req := ⟨m, c.reqId⟩
    let p := eParam t.entry
    (Accepted 0x0401 m c s t → chkStreamOpen m s (entryOf c 0x0401) t = none →
      let o := s.openStream { index := 0, gen := 0, owner := mbPart m, cls := p 0 0 2, lateOk := p 0 2 1 == 1, qdepth := p 4 0 7,
                              video := p 8 0 32 }
      (p 1 3 1 = 0 → exec (.streamOpen m c) s = .next (finish s (State.refuseDue (o.2.2.complete r ST.ok o.2.1) m))) ∧
      (∀ n, p 1 3 1 = 1 → o.2.2.openPool m t.entry = some n →
        let d := o.2.2.kvDraw n (p 2 0 16) { pool := n }
        exec (.streamOpen m c) s = .next (finish s
          (State.refuseDue ((d.2.updStream o.1 fun y => { y with kv := some d.1 }).complete r ST.ok o.2.1) m)))) ∧
    (∀ x, s.streamOf (mbPart m) (eTarget t.entry) = some x →
      (Accepted 0x0402 m c s t → chkSubmit m s (entryOf c 0x0402) t = none → (x.qdepth ≤ x.jobs.length ∨ (s.part x.owner).busy = true) →
        exec (.streamSubmit m c) s = .next (finish s (State.refuseDue ((s.count x.index 2 1).complete r ST.busy) m))) ∧
      (Accepted 0x0402 m c s t → chkSubmit m s (entryOf c 0x0402) t = none → x.jobs.length < x.qdepth → (s.part x.owner).busy = false →
        s.submitRet x (p 0 0 64) (p 8 0 16) = [] → s.validate x (p 0 0 64) (p 8 0 16) = none →
        let j := s.jobOf x r t.entry
        let u : State := (s.updStream x.index fun y => { y with
          items := y.items ++ [.job { j with pred := s.predictJob x j, width := s.widthOf x j }], nextJob := y.nextJob + 1,
          fLast := (if x.fLast < s.now then (s.now : Rat) else x.fLast) + s.predictJob x j }).hold1 x.owner
        exec (.streamSubmit m c) s = .next (finish s
          (State.refuseDue (if s.tooLate x (s.predictJob x j) (s.widthOf x j) j.deadline then (s.count x.index 1 1).complete r ST.latePredicted
           else (if j.waitEnd then u.wait r else u.complete r ST.ok (j.number % 2 ^ 32)).advance) m))) ∧
      (Accepted 0x0402 m c s t → chkSubmit m s (entryOf c 0x0402) t = none → x.jobs.length < x.qdepth → (s.part x.owner).busy = false →
        s.submitRet x (p 0 0 64) (p 8 0 16) ≠ [] → exec (.streamSubmit m c) s = .next (finish s
          (State.refuseDue ((s.submitRet x (p 0 0 64) (p 8 0 16)).foldl State.wakePlain s) m))) ∧
      (Accepted 0x0403 m c s t → x.state = .opened → s.streamOf (mbPart m) (eTarget (entryOf c 0x0403)) = some x →
        exec (.streamCancel m c) s = .next (finish s
          (State.refuseDue ((s.cancel x (p 0 0 32)).complete r ST.ok (x.queued (p 0 0 32)).length).advance m))) ∧
      (Accepted 0x0404 m c s t → x.state = .opened → s.streamOf (mbPart m) (eTarget (entryOf c 0x0404)) = some x →
        let u : State := (s.updStream x.index fun y => { y with state := .closing, close := some r, closeAt := s.now }).wait r
        exec (.streamClose m c) s = .next (finish s (State.refuseDue (if p 0 0 1 = 0 then u.cancel x 0xFFFFFFFF else u).advance m))) ∧
      (Accepted 0x0404 m c s t → x.state = .teardown → x.close = none → s.streamOf (mbPart m) (eTarget (entryOf c 0x0404)) = some x →
        exec (.streamClose m c) s = .next (finish s
          (State.refuseDue ((s.updStream x.index fun y => { y with close := some r, closeAt := s.now }).wait r) m))) ∧
      (Accepted 0x0405 m c s t → x.state = .opened → s.streamOf (mbPart m) (eTarget (entryOf c 0x0405)) = some x →
        exec (.streamQuery m c) s = .next (finish s (State.refuseDue (s.complete r ST.ok
          ((x.jobs.filter (·.started.isNone)).length % 128 + b2n (x.jobs.any (·.started.isSome)) * 2 ^ 7 + x.cls * 2 ^ 8 +
            min (s.kvLength x) 65535 * 2 ^ 16 + x.counters.getD 0 0 % 2 ^ 32 * 2 ^ 32)) m))))

/-- R169, R170, R171, R242, R261, R262, R263, R323: MEM_ALLOC hands out zeroed frames and answers their address, MEM_FREE takes
them back; LEDGER_RESERVE records a reservation (its number is free among those not in use, log entry 76), LEDGER_RELEASE ends
it, LEDGER_QUERY answers the sum, the lowest factor and OVERCOMMITTED; a KV pool is made and destroyed, and KV_FORK,
KV_TRUNCATE and KV_PIN_PREFIX take their turn behind the jobs of their streams. -/
def Obligations.MemoryCommands : Prop :=
  ∀ (m : Nat) (c : Cmd) (s : State) (t : Taken),
    let r : Req := ⟨m, c.reqId⟩
    let p := eParam t.entry
    (∀ a, Accepted 0x0501 m c s t → s.memFind (entryOf c 0x0501) = some a → s.memFind t.entry = some a →
      exec (.memAlloc m c) s = .next (finish s
        (State.refuseDue ((s.alloc { part := mbPart m, base := a, size := p 0 0 64 }).complete r ST.ok a) m))) ∧
    (∀ x, Accepted 0x0502 m c s t → chkMemFree m s (entryOf c 0x0502) t = none → s.allocAt (mbPart m) (p 0 0 40) = some x →
      exec (.memFree m c) s = .next (finish s (State.refuseDue ((s.release x).complete r ST.ok) m))) ∧
    (Accepted 0x0503 m c s t → chkLedgerReserve m s (entryOf c 0x0503) t = none →
      exec (.ledgerReserve m c) s = .next (finish s (State.refuseDue (State.complete { s with ledger := { s.ledger with resvs := s.ledger.resvs ++
        [{ id := s.freeResv, kind := p 0 0 2, index := p 1 0 5, rank := p 2 0 2, amount := p 4 0 32, part := mbPart m,
           stream := p 8 0 32, committed := s.now }] } } r ST.ok s.freeResv) m))) ∧
    (Accepted 0x0504 m c s t → (s.ownResv (mbPart m) (eParam (entryOf c 0x0504) 0 0 16)).isSome = true →
      exec (.ledgerRelease m c) s = .next (finish s
        (State.refuseDue ((s.releaseResvs fun x => x.id == p 0 0 16 && x.part == mbPart m && !x.scrub).complete r ST.ok) m))) ∧
    (Accepted 0x0505 m c s t → exec (.ledgerQuery m c) s = .next (finish s (State.refuseDue (effLedgerQuery s r t) m))) ∧
    (∀ n, Accepted 0x0601 m c s t → chkKvPoolCreate m s (entryOf c 0x0601) t = none → s.freePool = some n →
      let k := poolOfEntry m t.entry
      let u : State := (s.updPool n fun o =>
        ({ k with gen := o.gen, freeHead := k.metaPages, freeCount := k.pages - k.metaPages } : KvPool)).kvFormatPool n
      exec (.kvPoolCreate m c) s = .next (finish s (State.refuseDue (u.complete r ST.ok (hPool n (u.pool n).gen + k.perPage * 2 ^ 32)) m))) ∧
    (∀ n, Accepted 0x0602 m c s t → chkKvPoolDestroy m s (entryOf c 0x0602) t = none →
      s.poolOf (mbPart m) (eTarget t.entry) = some n → exec (.kvPoolDestroy m c) s = .next (finish s
        (State.refuseDue ((s.updPool n fun k => { gen := (k.gen + 1) % 256 }).complete r ST.ok) m))) ∧
    (∀ x y, Accepted 0x0603 m c s t → chkKv m s (entryOf c 0x0603) t = none → eOpcode t.entry = 0x0603 →
      s.streamOf (mbPart m) (eTarget t.entry) = some x → ((s.wait r).gate x.index r).forkDest m t.entry = some y →
      exec (.kvFork m c) s = .next (finish s (State.refuseDue (if y.index ≠ x.index then (((s.wait r).gate x.index r).gate y.index r)
        else ((s.wait r).gate x.index r)).advance m))) ∧
    (∀ x, s.streamOf (mbPart m) (eTarget t.entry) = some x →
      (Accepted 0x0604 m c s t → chkKv m s (entryOf c 0x0604) t = none → eOpcode t.entry = 0x0604 →
        exec (.kvTruncate m c) s = .next (finish s (State.refuseDue ((s.wait r).gate x.index r).advance m))) ∧
      (Accepted 0x0605 m c s t → chkKv m s (entryOf c 0x0605) t = none → eOpcode t.entry = 0x0605 →
        exec (.kvPinPrefix m c) s = .next (finish s (State.refuseDue ((s.wait r).gate x.index r).advance m))))

/-- R172, R221, R225, R125, R126, R388, R403: the SYNC, FORD and MEDIA commands (which free number a media context takes is
the model's, log entry 76; what a flush discards, log entry 62). -/
def Obligations.SyncFordAndMediaCommands : Prop :=
  ∀ (m : Nat) (c : Cmd) (s : State) (t : Taken),
    let r : Req := ⟨m, c.reqId⟩
    let p := eParam t.entry
    (Accepted 0x0701 m c s t → chkSyncAlloc s (entryOf c 0x0701) t = none →
      let f := s.sync.free.take Config.syncObjects
      let x : SyncObj := { index := f.1, gen := f.2.1, part := mbPart m, typ := p 0 0 2,
                           count := if p 0 0 2 = 1 then p 4 0 32 else 0, participants := if p 0 0 2 = 2 then p 4 0 32 else 0 }
      exec (.syncAlloc m c) s = .next (finish s
        (State.refuseDue (State.complete { s with sync := { objs := s.sync.objs ++ [x], free := f.2.2 } } r ST.ok x.handle) m))) ∧
    (∀ x, s.syncOf (mbPart m) (eTarget t.entry) = some x →
      (Accepted 0x0702 m c s t → chkSyncFree m s (entryOf c 0x0702) t = none → exec (.syncFree m c) s = .next (finish s
        (State.refuseDue ((State.unbind { s with sync := { objs := s.sync.objs.filter (·.index != x.index), free := s.sync.free.give x.index x.gen } } m x.handle).complete r ST.ok) m))) ∧
      (Accepted 0x0703 m c s t → chkSyncRecover m s (entryOf c 0x0703) t = none → exec (.syncRecover m c) s = .next (finish s
        (State.refuseDue ((if x.state = 0 then s else s.updObj x.index fun y => { y with state := 0, arrivals := [] }).complete r ST.ok
          (b2n (x.state != 0))) m))) ∧
      (Accepted 0x0704 m c s t → exec (.syncQuery m c) s = .next (finish s (State.refuseDue (s.complete r ST.ok x.query) m)))) ∧
    (Accepted 0x0801 m c s t → chkFordMap m s (entryOf c 0x0801) t = none → exec (.fordMap m c) s = .next (finish s
      (State.refuseDue ((s.updWindow m (p 0 0 6) fun _ => windowOf t.entry).complete r ST.ok (windowOf t.entry).len) m))) ∧
    (Accepted 0x0802 m c s t → chkFordUnmap m s (entryOf c 0x0802) t = none → p 0 0 1 = 0 →
      exec (.fordUnmap m c) s = .next (finish s (State.refuseDue ((s.unmap m (hObj (eTarget t.entry))).complete r ST.ok) m))) ∧
    (Accepted 0x0802 m c s t → chkFordUnmap m s (entryOf c 0x0802) t = none → p 0 0 1 ≠ 0 →
      let w := hObj (eTarget t.entry)
      exec (.fordUnmap m c) s = .next (finish s (State.refuseDue
        ((((s.poisonOwned m w).updWindow m w fun y => { y with unmapping := some r }).wait r).drainWindows) m))) ∧
    (∀ d cs a, Accepted 0x0901 m c s t → chkMediaEncOpen m s (entryOf c 0x0901) t = none →
      s.encPlan (mbPart m) t.entry = some (d, cs, a) →
      let i := pickFree s.now ((List.range encContexts).filter fun i => s.media.encs.all (·.index != i))
      let u := s.reserveCores (mbPart m) d cs
      let v : State := u.2.alloc { part := mbPart m, base := a, size := bufferBytes (p 2 0 16) (p 4 0 16) (p 0 1 1 == 1) }
      exec (.mediaEncOpen m c) s = .next (finish s (State.refuseDue (State.complete { v with media := { v.media with encs := v.media.encs ++
        [{ index := i, part := mbPart m, av1 := p 0 0 1 == 1, ten := p 0 1 1 == 1, split := p 0 2 2, cores := cs,
           width := p 2 0 16, height := p 4 0 16, fps := p 6 0 8, bitrate := p 8 0 32, irPeriod := p 12 0 16, resv := u.1,
           buffer := a, openAt := v.now }] } } r ST.ok (hMedia i)) m))) ∧
    (∀ x, s.encOf (mbPart m) (eTarget t.entry) = some x →
      (Accepted 0x0902 m c s t → x.closing = none → x.frame = none →
        exec (.mediaEncClose m c) s = .next (finish s (State.refuseDue ((s.dropEnc x).complete r ST.ok) m))) ∧
      (Accepted 0x0902 m c s t → x.closing = none → x.frame.isSome = true → exec (.mediaEncClose m c) s = .next (finish s
        (State.refuseDue ((s.wait r).updEnc x.index fun y => { y with closing := some r, waiting := none }) m))) ∧
      (Accepted 0x0906 m c s t → exec (.mediaKeyRequest m c) s = .next (finish s
        (State.refuseDue ((s.updEnc x.index fun y => { y with keyAt := some (y.keyAt.getD t.stamp) }).complete r ST.ok t.stamp) m))) ∧
      (Accepted 0x0907 m c s t → exec (.mediaRoiSet m c) s = .next (finish s (State.refuseDue ((s.updEnc x.index fun y => { y with
        nextRois := y.nextRois ++ [(t.stamp, p 0 0 3, {
          on := p 0 3 1 == 1, qp := sgn 8 (p 1 0 8), x := p 2 0 16, y := p 4 0 16, w := p 6 0 16, h := p 8 0 16 })] }).complete r ST.ok) m))) ∧
      (Accepted 0x0908 m c s t → chkMediaLayerSet m s (entryOf c 0x0908) t = none → exec (.mediaLayerSet m c) s = .next (finish s
        (State.refuseDue ((s.updEnc x.index fun y => { y with nextLayers := y.nextLayers ++ [(t.stamp, p 0 0 3,
          { on := p 0 3 1 == 1, policy := p 0 4 2, grace := p 1 0 8, source := p 2 0 2, producer := p 4 0 32, buffer := p 8 0 52,
            x := p 16 0 16, y := p 18 0 16, w := p 20 0 16, h := p 22 0 16, alpha := p 24 0 8 })] }).complete r ST.ok) m)))) ∧
    (∀ cs, Accepted 0x0903 m c s t → chkMediaDecOpen m s (entryOf c 0x0903) t = none →
      s.takeCores (mbPart m) (decDemand (p 0 0 2) (p 2 0 16) (p 4 0 16)) 1 decCores = some cs →
      let i := pickFree s.now ((List.range decContexts).filter fun i => s.media.decs.all (·.index != i))
      let u := s.reserveCores (mbPart m) (decDemand (p 0 0 2) (p 2 0 16) (p 4 0 16)) cs
      exec (.mediaDecOpen m c) s = .next (finish s (State.refuseDue (State.complete { u.2 with media := { u.2.media with decs := u.2.media.decs ++
        [{ index := i, part := mbPart m, codec := p 0 0 2, core := cs.headD 12, maxW := p 2 0 16, maxH := p 4 0 16,
           outAddr := p 8 0 64, outFrames := p 16 0 8, resv := u.1 }] } } r ST.ok (hMedia (i + 2048))) m))) ∧
    (∀ x, s.decOf (mbPart m) (eTarget t.entry) = some x →
      (Accepted 0x0904 m c s t → exec (.mediaDecFlush m c) s = .next (finish s
        (State.refuseDue ((State.decFlush { s with fresh := s.fresh + 1 } x).complete r ST.ok
          (if x.slots.isEmpty then x.held.length else x.held.length + Config.freshBits s.fresh)) m))) ∧
      (Accepted 0x0905 m c s t → exec (.mediaDecClose m c) s = .next (finish s (State.refuseDue (((s.decFlush x).dropDec x).complete r ST.ok) m))))

/-- R96, R98, R366, R367, R375: PASS_RETRAIN queues a retrain and waits; PASS_STATUS answers a port's state; VALLEY_JOIN
sends JOIN and waits; VALLEY_LEAVE leaves; VALLEY_ROUTE_SET sets a route; COLL_GROUP_CREATE makes a group and tells its
members (its number is free among those not in use, log entry 76); COLL_GROUP_DESTROY ends it once nothing of it is left. -/
def Obligations.LinkCommands : Prop :=
  ∀ (m : Nat) (c : Cmd) (s : State) (t : Taken),
    let r : Req := ⟨m, c.reqId⟩
    let p := eParam t.entry
    (Accepted 0x0A01 m c s t → chkPassRetrain s (entryOf c 0x0A01) t = none →
      let u : State := (s.wait r).updPort (p 0 0 5) fun x => { x with waitReqs := x.waitReqs ++ [r], full := x.full || p 0 5 1 == 1 }
      exec (.passRetrain m c) s = .next (finish s (State.refuseDue (if (u.port (p 0 0 5)).authFailed then
        u.updPort (p 0 0 5) fun x => { x with authFailed := false, queued := some u.now } else u.portReset (p 0 0 5)) m))) ∧
    (Accepted 0x0A02 m c s t → exec (.passStatus m c) s = .next (finish s (State.refuseDue (s.complete r ST.ok
      ((s.port (p 0 0 5)).state.code + (s.port (p 0 0 5)).width * 2 ^ 3 + (s.port (p 0 0 5)).peer % 4096 * 2 ^ 16 +
        (s.port (p 0 0 5)).corrected * 2 ^ 32)) m))) ∧
    (Accepted 0x0A10 m c s t →
      let w : State := s.wait r
      let u : State := { w with valley := { w.valley with
        joined := true, joining := w.valley.joining ++ [r], timed := false, id := p 0 0 16, root := p 2 0 1 == 1, expelled := false,
        waitingJoin := (List.range 24).filter fun p => (s.port p).live } }
      exec (.valleyJoin m c) s = .next (finish s (State.refuseDue (u.flood (u.joinMsg 0 0) none).joinDone m))) ∧
    (Accepted 0x0A11 m c s t → exec (.valleyLeave m c) s = .next (finish s (State.refuseDue (s.departValley.complete r ST.ok) m))) ∧
    (Accepted 0x0A12 m c s t → chkValleyRouteSet s (entryOf c 0x0A12) t = none →
      exec (.valleyRouteSet m c) s = .next (finish s (State.refuseDue ((State.noteRoutes { s with valley := { s.valley with
        routes := { dest := p 0 0 12, ports := (routePorts t.entry).dedup, hops := p 6 0 5, byCommand := true,
                    loopAt := (s.route (p 0 0 12)).bind (·.loopAt) } :: s.valley.routes.filter (·.dest != p 0 0 12) } }).complete r ST.ok) m))) ∧
    (Accepted 0x0A20 m c s t → chkCollGroupCreate m s (entryOf c 0x0A20) t = none → s.vMissing (p 16 0 64) (2 * p 4 0 13) = [] →
      let x : Group := {
        index := s.freeGroup, part := mbPart m, id := p 0 0 32, members := s.memberList t.entry, rank := p 6 0 13,
        timeout := if p 8 0 16 = 0 then 50 else p 8 0 16,
        readyFrom := s.chip :: (s.coll.early.filter fun y => y.1 == mbPart m && y.2.1 == p 0 0 32).map (·.2.2) }
      exec (.collGroupCreate m c) s = .next (finish s (State.refuseDue ((State.ctrl { s with coll := { s.coll with
        groups := s.coll.groups ++ [x], early := s.coll.early.filter fun y => !(y.1 == mbPart m && y.2.1 == p 0 0 32) } }
          x 0 0 s.chip 0 0).complete r ST.ok (hGroup s.freeGroup)) m))) ∧
    (∀ x, Accepted 0x0A21 m c s t → s.groupOf (mbPart m) (eTarget t.entry) = some x →
      exec (.collGroupDestroy m c) s = .next (finish s
        (State.refuseDue (((s.wait r).updGroup x.index fun y => { y with destroy := y.destroy ++ [r] }).reapGroup x.index) m)))

/-- R410 to R414, R418 to R422, R427 to R432, R439: SEC_ATTEST signs a report into its slot; SEC_DEBUG_CHALLENGE issues a
challenge; SEC_DEBUG_UNLOCK grants a level or denies it, and spends the challenge either way; SEC_DEBUG_LOCK ends the
level; SEC_LIFECYCLE_SET begins its transition; an FW command begins, or waits behind the one under way, and
FW_STATUS answers. -/
def Obligations.SecurityAndFirmwareCommands : Prop :=
  ∀ (m : Nat) (c : Cmd) (s : State) (t : Taken),
    let r : Req := ⟨m, c.reqId⟩
    let p := eParam t.entry
    (Accepted 0x0C01 m c s t → chkSecAttest m s (entryOf c 0x0C01) t = none →
      let l := s.report m (leBytes 32 (p 0 0 256))
      exec (.secAttest m c) s = .next (finish s (State.refuseDue ((s.slotWrite r t l).complete r ST.ok l.length) m))) ∧
    (Accepted 0x0C02 m c s t → t.slot.isSome = true → s.sec.lifecycle ≠ 4 →
      let l := s.challengeBytes (p 0 0 2)
      exec (.secDebugChallenge m c) s = .next (finish s (State.refuseDue ((State.slotWrite { s with sec := { s.sec with
        challenge := some (l, s.now), drbgCount := s.sec.drbgCount + 1 } } r t l).complete r ST.ok 64) m))) ∧
    (Accepted 0x0C03 m c s t → t.slot.isSome = true →
      let u : State := { s with sec := { s.sec with challenge := none } }
      exec (.secDebugUnlock m c) s = .next (finish s (State.refuseDue (match s.debugGrant (s.slotRead r t) with
        | some 2 => u.invasive r
        | some l => (u.setLevel l).complete r ST.ok l
        | none => u.complete r ST.secDenied) m))) ∧
    (Accepted 0x0C04 m c s t → exec (.secDebugLock m c) s = .next (finish s (State.refuseDue ((s.setLevel 0).complete r ST.ok) m))) ∧
    (Accepted 0x0C05 m c s t → t.slot.isSome = true → s.sec.lifecycleReq = none →
      let w : State := s.wait r
      exec (.secLifecycleSet m c) s = .next (finish s
        (State.refuseDue (if s.authorised (s.slotRead ⟨m, eId (entryOf c 0x0C05)⟩ t) (eParam (entryOf c 0x0C05) 0 0 3) then
          State.secResume { w with sec := { w.sec with
            lifecycleReq := some (r, p 0 0 3, ownerField (s.slotRead r t) 32 96, ownerField (s.slotRead r t) 128 48) } }
         else s.complete r ST.secDenied) m))) ∧
    (∀ i op, (i = Instr.fwDownload m c ∧ op = 0x0D01) ∨ (i = Instr.fwVerify m c ∧ op = 0x0D02) ∨ (i = Instr.fwActivate m c ∧ op = 0x0D03) ∨
        (i = Instr.fwConfirm m c ∧ op = 0x0D04) →
      (Accepted op m c s t → s.fw.busy.isSome = true → exec i s = .next (finish s
        (State.refuseDue (State.wait { s with fw := { s.fw with waiting := s.fw.waiting ++ [r] } } r) m))) ∧
      (∀ u res, Accepted op m c s t → s.fw.busy = none → fwCheck s (entryOf c op) t = none → s.fwBegin r t = (u, some res) →
        exec i s = .next (finish s (State.refuseDue (u.fwEnd r ST.ok res) m))) ∧
      (∀ u, Accepted op m c s t → s.fw.busy = none → fwCheck s (entryOf c op) t = none → s.fwBegin r t = (u, none) →
        exec i s = .next (finish s (State.refuseDue u m)))) ∧
    (Accepted 0x0D05 m c s t → exec (.fwStatus m c) s = .next (finish s (State.refuseDue (s.complete r ST.ok
      ((s.slotState 0).code + (s.slotState 1).code * 2 ^ 4 + s.fw.running * 2 ^ 8 + s.selector.trial * 2 ^ 9 +
        s.arbCounter * 2 ^ 16 + s.fw.hwm * 2 ^ 32)) m)))

/-- R45, R92, R95: TEST_RUN and HBM_RETRAIN queue their work and wait, HBM_REPAIR too (whether a bank has a
hard repair left is free, log entry 49; it fails at once on a FAILED Basin); RAIL_STATUS and THERMAL_QUERY answer, and RAIL_THRESH_SET sets a rail's four values together,
and its excursion is judged afresh from then (what HBM_REPAIR answers on a FAILED Basin, log entry 139). -/
def Obligations.TestAndRailCommands : Prop :=
  ∀ (m : Nat) (c : Cmd) (s : State) (t : Taken),
    let r : Req := ⟨m, c.reqId⟩
    let p := eParam t.entry
    (Accepted 0x0E02 m c s t → chkTestRun s (entryOf c 0x0E02) t = none → exec (.testRun m c) s = .next (finish s
      (State.refuseDue (State.wait { s with boot := { s.boot with tests := s.boot.tests ++ [(r, p 0 0 8, p 8 0 64)] } } r) m))) ∧
    (∀ d, Accepted 0x0E03 m c s t → s.rowEntry (eParam (entryOf c 0x0E03) 0 0 12) = some d → s.rowEntry (p 0 0 12) = some d →
      exec (.hbmRepair m c) s = .next (finish s
        (State.refuseDue (if !Config.hardRepairLeft (bankOf d.loc) (s.hardRepairs (bankOf d.loc)) then s.complete r ST.repairExhausted
         else if (s.basin (bits d.loc 0 3)).state = .failed then s.complete r ST.repairFailed
         else (s.updBasin (bits d.loc 0 3) fun x => { x with repairReqs := x.repairReqs ++ [(r, p 0 0 12, s.now)] }).wait r) m))) ∧
    (Accepted 0x0E04 m c s t → (s.basin (eParam (entryOf c 0x0E04) 0 0 3)).state ≠ .failed → exec (.hbmRetrain m c) s = .next (finish s
      (State.refuseDue (((s.trigger (p 0 0 3) false).updBasin (p 0 0 3) fun x => { x with waitReqs := x.waitReqs ++ [r] }).wait r) m))) ∧
    (Accepted 0x0F01 m c s t → exec (.railStatus m c) s = .next (finish s (State.refuseDue (s.complete r ST.ok (s.rail (p 0 0 4)).status) m))) ∧
    (Accepted 0x0F02 m c s t → chkRailThreshSet s (entryOf c 0x0F02) t = none → exec (.railThreshSet m c) s = .next (finish s
      (State.refuseDue ((s.updRail (p 0 0 4) fun x => { x with judgedFrom := s.now, cfg := { x.cfg with
        window := p 1 0 1 == 1 && senseRail (p 0 0 4), uv := p 2 0 8, ov := p 3 0 8, filter := p 4 0 8 } }).complete r ST.ok) m))) ∧
    (Accepted 0x0F03 m c s t → p 0 0 1 = 0 → exec (.thermalQuery m c) s = .next (finish s (State.refuseDue (s.complete r ST.ok
      (twos 16 (s.plain (p 1 0 4)).hottest + (s.plain (p 1 0 4)).duty * 2 ^ 16 + (s.plain (p 1 0 4)).limit * 2 ^ 20)) m))) ∧
    (Accepted 0x0F03 m c s t → p 0 0 1 ≠ 0 → exec (.thermalQuery m c) s = .next (finish s (State.refuseDue (s.complete r ST.ok
      (twos 16 ((s.basin (p 1 0 4)).temp * 4) + (s.basin (p 1 0 4)).thermal * 2 ^ 16)) m)))

/-! ### Rules that hold whatever the row -/

/-- R53, R466: a PMBus transaction that is abandoned because its target holds PMB_SCL low counts as failed: it leaves what a status
read that is not acknowledged leaves. It is retried once, and the second failure marks the rail's telemetry stale. -/
def Obligations.HeldClockCountsAsFailure : Prop :=
  ∀ (s : State) (ch : Nat) (w : RegStatus), ch < 16 → w.channel = ch → w.acked = false → s.pmb = true → (s.rail ch).cfg.pmbAddr ≠ 0 →
    exec (.pmbusSclTimeout ch) s = .next (finish s (s.statusWord w)) ∧
    ((s.rail ch).tried = false →
      exec (.pmbusSclTimeout ch) s = .next (finish s (s.updRail ch fun r => { r with tried := true }))) ∧
    ((s.rail ch).tried = true → ch < s.rails.length → ∃ u, exec (.pmbusSclTimeout ch) s = .next u ∧ (u.rail ch).stale = true)

/-- R372: a port that receives no flit of any kind for a time of 1 ms or more takes a PORT reset, so that it carries no
traffic until its retrain has run; a shorter silence does nothing. -/
def Obligations.SilentPortIsReset : Prop :=
  ∀ (s : State) (p : Nat), s.core = true →
    ((s.port p).lastFlit + 1000000 ≤ s.now →
      exec (.portIdleTimeout p) s = .next (finish s (s.portReset p)) ∧
      ((s.port p).live = true → ((s.portReset p).port p).live = false ∧ ((s.portReset p).port p).queued = some s.now)) ∧
    (s.now < (s.port p).lastFlit + 1000000 → exec (.portIdleTimeout p) s = .next (finish s s))

/-- R34: the 1 µs windows start at device-time multiples of 1,000 ns: each starts once, reckoned from its multiple, and at the start of one
nothing of it has been used in any Basin (that a window whose multiple a slew has passed over starts at the next stamp a row sees is the
model's choice, log entry 148). -/
def Obligations.WindowsStartAtMicroseconds : Prop :=
  ∀ s : State, s.core = true →
    (s.ledger.window = s.now / 1000 + 1 → exec .windowStart s = .next (finish s s)) ∧
    (s.ledger.window ≠ s.now / 1000 + 1 → ∃ t, exec .windowStart s = .next t ∧
      t.ledger.window = s.now / 1000 + 1 ∧ t.windowBegan = s.now / 1000 * 1000 ∧
      ∀ b, (t.basin b).used = 0 ∧ (t.basin b).lcr = 0 ∧ (t.basin b).mnt = 0 ∧ (t.basin b).patrolDone = false)

/-- R238, R239: the interleaved view and the affine view are two one-to-one names of the same frames, with eight live Basins
and with fewer. -/
def Obligations.InterleaveIsOneToOne : Prop :=
  (∀ (live : List Nat) (F : Nat), live ≠ [] → live.Nodup →
    deinterleave live (interleave live F).1 (interleave live F).2 = some F) ∧
  (∀ (live : List Nat) (b f F : Nat), (live.length = 8 → b < 8) → deinterleave live b f = some F → interleave live F = (b, f)) ∧
  (∀ (s : State) (b f o F : Nat), b < 8 → f < Config.allocatableFrames → o < 4096 → deinterleave s.mem.live b f = some F →
    F * 4096 + o < s.mem.live.length * Config.basinBytes →
    localKey s (F * 4096 + o) = some (frameKey b f o) ∧
    localKey s (affineBase + b * 2 ^ 36 + f * 4096 + o) = some (frameKey b f o))

/-- R266: with the reservations of a resource as ranks and amounts, each factor is at most 1.0, a rank is scaled only once
every lower rank stands at zero, and the scaled tokens of all together never exceed T. -/
def Obligations.ScaledTokensNeverExceedT : Prop :=
  ∀ (t : Int) (l : List (Nat × Nat)), (∀ x ∈ l, x.1 < 3) →
    let held (k : Nat) : Nat := ((l.filter (·.1 == k)).map (·.2)).sum
    let factor (k : Nat) : Nat := rankFactor t (held 0) (held 1) (held 2) k
    (∀ k, factor k ≤ 32768) ∧ (factor 1 < 32768 → factor 2 = 0) ∧
    (factor 0 < 32768 → factor 1 = 0 ∧ factor 2 = 0) ∧
    (((l.map fun x => x.2 * factor x.1 / 32768).sum : Nat) : Int) ≤ max t 0

/-- R227: takes of a SEM are granted in arrival order while the count suffices, a request that cannot be met blocks every
later one, a grant takes its units from the count, and a return saturates at 2^32 - 1 and is then a misuse. -/
def Obligations.SemaphoreServesInOrder : Prop :=
  (∀ (l : List Waiter) (x : SyncObj),
    let r := SyncObj.serveSem l x
    l = r.2.map (·.who) ++ r.1.waiters ∧ x.count = r.1.count + (r.2.map (·.who.value)).sum ∧
    (∀ w rest, r.1.waiters = w :: rest → r.1.count < w.value) ∧ (∀ g ∈ r.2, g.result = 0)) ∧
  (∀ (x : SyncObj) (o : Owner) (value : Nat), x.typ = 1 →
    let r := x.signal o value
    x.waiters = r.2.1.map (·.who) ++ r.1.waiters ∧
    min (x.count + value) (2 ^ 32 - 1) = r.1.count + (r.2.1.map (·.who.value)).sum ∧
    (r.2.2.isSome = true ↔ 2 ^ 32 ≤ x.count + value)) ∧
  (∀ (x : SyncObj) (w : Waiter), x.typ = 1 → x.waiters ≠ [] → (x.wait w).1.waiters = x.waiters ++ [w] ∧ (x.wait w).2 = [])

/-- R446: the records that a confidential partition's events leave in the AON log and in the crash log tell nothing of their
SOURCE and PAYLOAD: two events that differ in these alone leave the same logs. -/
def Obligations.ConfidentialRecordsTellNothing : Prop :=
  ∀ (s : State) (rings : List Nat) (code cls source source' payload payload' : Nat) (final : Bool) (p : Nat),
    (s.part p).cfg.confidential = true →
    (s.emit rings code cls source payload final (some p)).logs = (s.emit rings code cls source' payload' final (some p)).logs ∧
    (s.emit rings code cls source payload final (some p)).flash = (s.emit rings code cls source' payload' final (some p)).flash

/-- R274, R280, R281: a value that a floating format can represent passes the output converter into that format unchanged,
whatever the rounding and the saturation, ACC52 and ER32 included. -/
def Obligations.ConversionKeepsRepresentableValues : Prop :=
  ∀ (f : Fmt) (sat : Bool) (r : Option Nat) (v : Nat), (f = Fmt.acc52 ∨ f = Fmt.er32 ∨ ∃ code, fmtOf code = some f) →
    v < 2 ^ (1 + f.exp + f.man) → (f.decode v).isNan = false → f.convert sat r (f.decode v) = v
end

