-- ==== Sys2Proof/Laws/State.lean ====
section
/-! SUPPORT. The state after an update of one numbered unit, field by field, and after the end of a command. -/
namespace Sys2Proof.Machine

/-! ### State.updMb -/

section
variable (s : State) (m : Nat) (f : Mailbox → Mailbox)
@[simp] theorem State.updMb_now : (s.updMb m f).now = s.now := rfl
@[simp] theorem State.updMb_time : (s.updMb m f).time = s.time := rfl
@[simp] theorem State.updMb_clk : (s.updMb m f).clk = s.clk := rfl
@[simp] theorem State.updMb_rails : (s.updMb m f).rails = s.rails := rfl
@[simp] theorem State.updMb_sup : (s.updMb m f).sup = s.sup := rfl
@[simp] theorem State.updMb_plains : (s.updMb m f).plains = s.plains := rfl
@[simp] theorem State.updMb_power : (s.updMb m f).power = s.power := rfl
@[simp] theorem State.updMb_boot : (s.updMb m f).boot = s.boot := rfl
@[simp] theorem State.updMb_flash : (s.updMb m f).flash = s.flash := rfl
@[simp] theorem State.updMb_prof : (s.updMb m f).prof = s.prof := rfl
@[simp] theorem State.updMb_fns : (s.updMb m f).fns = s.fns := rfl
@[simp] theorem State.updMb_hif : (s.updMb m f).hif = s.hif := rfl
@[simp] theorem State.updMb_cp : (s.updMb m f).cp = s.cp := rfl
@[simp] theorem State.updMb_logs : (s.updMb m f).logs = s.logs := rfl
@[simp] theorem State.updMb_dbg : (s.updMb m f).dbg = s.dbg := rfl
@[simp] theorem State.updMb_parts : (s.updMb m f).parts = s.parts := rfl
@[simp] theorem State.updMb_destroyed : (s.updMb m f).destroyed = s.destroyed := rfl
@[simp] theorem State.updMb_streams : (s.updMb m f).streams = s.streams := rfl
@[simp] theorem State.updMb_streamFree : (s.updMb m f).streamFree = s.streamFree := rfl
@[simp] theorem State.updMb_sched : (s.updMb m f).sched = s.sched := rfl
@[simp] theorem State.updMb_sync : (s.updMb m f).sync = s.sync := rfl
@[simp] theorem State.updMb_mem : (s.updMb m f).mem = s.mem := rfl
@[simp] theorem State.updMb_basins : (s.updMb m f).basins = s.basins := rfl
@[simp] theorem State.updMb_ledger : (s.updMb m f).ledger = s.ledger := rfl
@[simp] theorem State.updMb_kv : (s.updMb m f).kv = s.kv := rfl
@[simp] theorem State.updMb_ports : (s.updMb m f).ports = s.ports := rfl
@[simp] theorem State.updMb_valley : (s.updMb m f).valley = s.valley := rfl
@[simp] theorem State.updMb_coll : (s.updMb m f).coll = s.coll := rfl
@[simp] theorem State.updMb_media : (s.updMb m f).media = s.media := rfl
@[simp] theorem State.updMb_sec : (s.updMb m f).sec = s.sec := rfl
@[simp] theorem State.updMb_fw : (s.updMb m f).fw = s.fw := rfl
@[simp] theorem State.updMb_host : (s.updMb m f).host = s.host := rfl
@[simp] theorem State.updMb_readData : (s.updMb m f).readData = s.readData := rfl
@[simp] theorem State.updMb_fresh : (s.updMb m f).fresh = s.fresh := rfl
@[simp] theorem State.updMb_pending : (s.updMb m f).pending = s.pending := rfl
end

/-! ### State.updFn -/

section
variable (s : State) (m : Nat) (f : Fn → Fn)
@[simp] theorem State.updFn_now : (s.updFn m f).now = s.now := rfl
@[simp] theorem State.updFn_time : (s.updFn m f).time = s.time := rfl
@[simp] theorem State.updFn_clk : (s.updFn m f).clk = s.clk := rfl
@[simp] theorem State.updFn_rails : (s.updFn m f).rails = s.rails := rfl
@[simp] theorem State.updFn_sup : (s.updFn m f).sup = s.sup := rfl
@[simp] theorem State.updFn_plains : (s.updFn m f).plains = s.plains := rfl
@[simp] theorem State.updFn_power : (s.updFn m f).power = s.power := rfl
@[simp] theorem State.updFn_boot : (s.updFn m f).boot = s.boot := rfl
@[simp] theorem State.updFn_flash : (s.updFn m f).flash = s.flash := rfl
@[simp] theorem State.updFn_prof : (s.updFn m f).prof = s.prof := rfl
@[simp] theorem State.updFn_hif : (s.updFn m f).hif = s.hif := rfl
@[simp] theorem State.updFn_mbx : (s.updFn m f).mbx = s.mbx := rfl
@[simp] theorem State.updFn_cp : (s.updFn m f).cp = s.cp := rfl
@[simp] theorem State.updFn_logs : (s.updFn m f).logs = s.logs := rfl
@[simp] theorem State.updFn_dbg : (s.updFn m f).dbg = s.dbg := rfl
@[simp] theorem State.updFn_parts : (s.updFn m f).parts = s.parts := rfl
@[simp] theorem State.updFn_destroyed : (s.updFn m f).destroyed = s.destroyed := rfl
@[simp] theorem State.updFn_streams : (s.updFn m f).streams = s.streams := rfl
@[simp] theorem State.updFn_streamFree : (s.updFn m f).streamFree = s.streamFree := rfl
@[simp] theorem State.updFn_sched : (s.updFn m f).sched = s.sched := rfl
@[simp] theorem State.updFn_sync : (s.updFn m f).sync = s.sync := rfl
@[simp] theorem State.updFn_mem : (s.updFn m f).mem = s.mem := rfl
@[simp] theorem State.updFn_basins : (s.updFn m f).basins = s.basins := rfl
@[simp] theorem State.updFn_ledger : (s.updFn m f).ledger = s.ledger := rfl
@[simp] theorem State.updFn_kv : (s.updFn m f).kv = s.kv := rfl
@[simp] theorem State.updFn_ports : (s.updFn m f).ports = s.ports := rfl
@[simp] theorem State.updFn_valley : (s.updFn m f).valley = s.valley := rfl
@[simp] theorem State.updFn_coll : (s.updFn m f).coll = s.coll := rfl
@[simp] theorem State.updFn_media : (s.updFn m f).media = s.media := rfl
@[simp] theorem State.updFn_sec : (s.updFn m f).sec = s.sec := rfl
@[simp] theorem State.updFn_fw : (s.updFn m f).fw = s.fw := rfl
@[simp] theorem State.updFn_host : (s.updFn m f).host = s.host := rfl
@[simp] theorem State.updFn_readData : (s.updFn m f).readData = s.readData := rfl
@[simp] theorem State.updFn_fresh : (s.updFn m f).fresh = s.fresh := rfl
@[simp] theorem State.updFn_pending : (s.updFn m f).pending = s.pending := rfl
end

/-! ### State.updPlain -/

section
variable (s : State) (m : Nat) (f : Plain → Plain)
@[simp] theorem State.updPlain_now : (s.updPlain m f).now = s.now := rfl
@[simp] theorem State.updPlain_time : (s.updPlain m f).time = s.time := rfl
@[simp] theorem State.updPlain_clk : (s.updPlain m f).clk = s.clk := rfl
@[simp] theorem State.updPlain_rails : (s.updPlain m f).rails = s.rails := rfl
@[simp] theorem State.updPlain_sup : (s.updPlain m f).sup = s.sup := rfl
@[simp] theorem State.updPlain_power : (s.updPlain m f).power = s.power := rfl
@[simp] theorem State.updPlain_boot : (s.updPlain m f).boot = s.boot := rfl
@[simp] theorem State.updPlain_flash : (s.updPlain m f).flash = s.flash := rfl
@[simp] theorem State.updPlain_prof : (s.updPlain m f).prof = s.prof := rfl
@[simp] theorem State.updPlain_fns : (s.updPlain m f).fns = s.fns := rfl
@[simp] theorem State.updPlain_hif : (s.updPlain m f).hif = s.hif := rfl
@[simp] theorem State.updPlain_mbx : (s.updPlain m f).mbx = s.mbx := rfl
@[simp] theorem State.updPlain_cp : (s.updPlain m f).cp = s.cp := rfl
@[simp] theorem State.updPlain_logs : (s.updPlain m f).logs = s.logs := rfl
@[simp] theorem State.updPlain_dbg : (s.updPlain m f).dbg = s.dbg := rfl
@[simp] theorem State.updPlain_parts : (s.updPlain m f).parts = s.parts := rfl
@[simp] theorem State.updPlain_destroyed : (s.updPlain m f).destroyed = s.destroyed := rfl
@[simp] theorem State.updPlain_streams : (s.updPlain m f).streams = s.streams := rfl
@[simp] theorem State.updPlain_streamFree : (s.updPlain m f).streamFree = s.streamFree := rfl
@[simp] theorem State.updPlain_sched : (s.updPlain m f).sched = s.sched := rfl
@[simp] theorem State.updPlain_sync : (s.updPlain m f).sync = s.sync := rfl
@[simp] theorem State.updPlain_mem : (s.updPlain m f).mem = s.mem := rfl
@[simp] theorem State.updPlain_basins : (s.updPlain m f).basins = s.basins := rfl
@[simp] theorem State.updPlain_ledger : (s.updPlain m f).ledger = s.ledger := rfl
@[simp] theorem State.updPlain_kv : (s.updPlain m f).kv = s.kv := rfl
@[simp] theorem State.updPlain_ports : (s.updPlain m f).ports = s.ports := rfl
@[simp] theorem State.updPlain_valley : (s.updPlain m f).valley = s.valley := rfl
@[simp] theorem State.updPlain_coll : (s.updPlain m f).coll = s.coll := rfl
@[simp] theorem State.updPlain_media : (s.updPlain m f).media = s.media := rfl
@[simp] theorem State.updPlain_sec : (s.updPlain m f).sec = s.sec := rfl
@[simp] theorem State.updPlain_fw : (s.updPlain m f).fw = s.fw := rfl
@[simp] theorem State.updPlain_host : (s.updPlain m f).host = s.host := rfl
@[simp] theorem State.updPlain_readData : (s.updPlain m f).readData = s.readData := rfl
@[simp] theorem State.updPlain_fresh : (s.updPlain m f).fresh = s.fresh := rfl
@[simp] theorem State.updPlain_pending : (s.updPlain m f).pending = s.pending := rfl
end

/-! ### State.updRail -/

section
variable (s : State) (m : Nat) (f : Rail → Rail)
@[simp] theorem State.updRail_now : (s.updRail m f).now = s.now := rfl
@[simp] theorem State.updRail_time : (s.updRail m f).time = s.time := rfl
@[simp] theorem State.updRail_clk : (s.updRail m f).clk = s.clk := rfl
@[simp] theorem State.updRail_sup : (s.updRail m f).sup = s.sup := rfl
@[simp] theorem State.updRail_plains : (s.updRail m f).plains = s.plains := rfl
@[simp] theorem State.updRail_power : (s.updRail m f).power = s.power := rfl
@[simp] theorem State.updRail_boot : (s.updRail m f).boot = s.boot := rfl
@[simp] theorem State.updRail_flash : (s.updRail m f).flash = s.flash := rfl
@[simp] theorem State.updRail_prof : (s.updRail m f).prof = s.prof := rfl
@[simp] theorem State.updRail_fns : (s.updRail m f).fns = s.fns := rfl
@[simp] theorem State.updRail_hif : (s.updRail m f).hif = s.hif := rfl
@[simp] theorem State.updRail_mbx : (s.updRail m f).mbx = s.mbx := rfl
@[simp] theorem State.updRail_cp : (s.updRail m f).cp = s.cp := rfl
@[simp] theorem State.updRail_logs : (s.updRail m f).logs = s.logs := rfl
@[simp] theorem State.updRail_dbg : (s.updRail m f).dbg = s.dbg := rfl
@[simp] theorem State.updRail_parts : (s.updRail m f).parts = s.parts := rfl
@[simp] theorem State.updRail_destroyed : (s.updRail m f).destroyed = s.destroyed := rfl
@[simp] theorem State.updRail_streams : (s.updRail m f).streams = s.streams := rfl
@[simp] theorem State.updRail_streamFree : (s.updRail m f).streamFree = s.streamFree := rfl
@[simp] theorem State.updRail_sched : (s.updRail m f).sched = s.sched := rfl
@[simp] theorem State.updRail_sync : (s.updRail m f).sync = s.sync := rfl
@[simp] theorem State.updRail_mem : (s.updRail m f).mem = s.mem := rfl
@[simp] theorem State.updRail_basins : (s.updRail m f).basins = s.basins := rfl
@[simp] theorem State.updRail_ledger : (s.updRail m f).ledger = s.ledger := rfl
@[simp] theorem State.updRail_kv : (s.updRail m f).kv = s.kv := rfl
@[simp] theorem State.updRail_ports : (s.updRail m f).ports = s.ports := rfl
@[simp] theorem State.updRail_valley : (s.updRail m f).valley = s.valley := rfl
@[simp] theorem State.updRail_coll : (s.updRail m f).coll = s.coll := rfl
@[simp] theorem State.updRail_media : (s.updRail m f).media = s.media := rfl
@[simp] theorem State.updRail_sec : (s.updRail m f).sec = s.sec := rfl
@[simp] theorem State.updRail_fw : (s.updRail m f).fw = s.fw := rfl
@[simp] theorem State.updRail_host : (s.updRail m f).host = s.host := rfl
@[simp] theorem State.updRail_readData : (s.updRail m f).readData = s.readData := rfl
@[simp] theorem State.updRail_fresh : (s.updRail m f).fresh = s.fresh := rfl
@[simp] theorem State.updRail_pending : (s.updRail m f).pending = s.pending := rfl
end

/-! ### State.updPart -/

section
variable (s : State) (m : Nat) (f : Part → Part)
@[simp] theorem State.updPart_now : (s.updPart m f).now = s.now := rfl
@[simp] theorem State.updPart_time : (s.updPart m f).time = s.time := rfl
@[simp] theorem State.updPart_clk : (s.updPart m f).clk = s.clk := rfl
@[simp] theorem State.updPart_rails : (s.updPart m f).rails = s.rails := rfl
@[simp] theorem State.updPart_sup : (s.updPart m f).sup = s.sup := rfl
@[simp] theorem State.updPart_plains : (s.updPart m f).plains = s.plains := rfl
@[simp] theorem State.updPart_power : (s.updPart m f).power = s.power := rfl
@[simp] theorem State.updPart_boot : (s.updPart m f).boot = s.boot := rfl
@[simp] theorem State.updPart_flash : (s.updPart m f).flash = s.flash := rfl
@[simp] theorem State.updPart_prof : (s.updPart m f).prof = s.prof := rfl
@[simp] theorem State.updPart_fns : (s.updPart m f).fns = s.fns := rfl
@[simp] theorem State.updPart_hif : (s.updPart m f).hif = s.hif := rfl
@[simp] theorem State.updPart_mbx : (s.updPart m f).mbx = s.mbx := rfl
@[simp] theorem State.updPart_cp : (s.updPart m f).cp = s.cp := rfl
@[simp] theorem State.updPart_logs : (s.updPart m f).logs = s.logs := rfl
@[simp] theorem State.updPart_dbg : (s.updPart m f).dbg = s.dbg := rfl
@[simp] theorem State.updPart_destroyed : (s.updPart m f).destroyed = s.destroyed := rfl
@[simp] theorem State.updPart_streams : (s.updPart m f).streams = s.streams := rfl
@[simp] theorem State.updPart_streamFree : (s.updPart m f).streamFree = s.streamFree := rfl
@[simp] theorem State.updPart_sched : (s.updPart m f).sched = s.sched := rfl
@[simp] theorem State.updPart_sync : (s.updPart m f).sync = s.sync := rfl
@[simp] theorem State.updPart_mem : (s.updPart m f).mem = s.mem := rfl
@[simp] theorem State.updPart_basins : (s.updPart m f).basins = s.basins := rfl
@[simp] theorem State.updPart_ledger : (s.updPart m f).ledger = s.ledger := rfl
@[simp] theorem State.updPart_kv : (s.updPart m f).kv = s.kv := rfl
@[simp] theorem State.updPart_ports : (s.updPart m f).ports = s.ports := rfl
@[simp] theorem State.updPart_valley : (s.updPart m f).valley = s.valley := rfl
@[simp] theorem State.updPart_coll : (s.updPart m f).coll = s.coll := rfl
@[simp] theorem State.updPart_media : (s.updPart m f).media = s.media := rfl
@[simp] theorem State.updPart_sec : (s.updPart m f).sec = s.sec := rfl
@[simp] theorem State.updPart_fw : (s.updPart m f).fw = s.fw := rfl
@[simp] theorem State.updPart_host : (s.updPart m f).host = s.host := rfl
@[simp] theorem State.updPart_readData : (s.updPart m f).readData = s.readData := rfl
@[simp] theorem State.updPart_fresh : (s.updPart m f).fresh = s.fresh := rfl
@[simp] theorem State.updPart_pending : (s.updPart m f).pending = s.pending := rfl
end

/-! ### State.updBasin -/

section
variable (s : State) (m : Nat) (f : Basin → Basin)
@[simp] theorem State.updBasin_now : (s.updBasin m f).now = s.now := rfl
@[simp] theorem State.updBasin_time : (s.updBasin m f).time = s.time := rfl
@[simp] theorem State.updBasin_clk : (s.updBasin m f).clk = s.clk := rfl
@[simp] theorem State.updBasin_rails : (s.updBasin m f).rails = s.rails := rfl
@[simp] theorem State.updBasin_sup : (s.updBasin m f).sup = s.sup := rfl
@[simp] theorem State.updBasin_plains : (s.updBasin m f).plains = s.plains := rfl
@[simp] theorem State.updBasin_power : (s.updBasin m f).power = s.power := rfl
@[simp] theorem State.updBasin_boot : (s.updBasin m f).boot = s.boot := rfl
@[simp] theorem State.updBasin_flash : (s.updBasin m f).flash = s.flash := rfl
@[simp] theorem State.updBasin_prof : (s.updBasin m f).prof = s.prof := rfl
@[simp] theorem State.updBasin_fns : (s.updBasin m f).fns = s.fns := rfl
@[simp] theorem State.updBasin_hif : (s.updBasin m f).hif = s.hif := rfl
@[simp] theorem State.updBasin_mbx : (s.updBasin m f).mbx = s.mbx := rfl
@[simp] theorem State.updBasin_cp : (s.updBasin m f).cp = s.cp := rfl
@[simp] theorem State.updBasin_logs : (s.updBasin m f).logs = s.logs := rfl
@[simp] theorem State.updBasin_dbg : (s.updBasin m f).dbg = s.dbg := rfl
@[simp] theorem State.updBasin_parts : (s.updBasin m f).parts = s.parts := rfl
@[simp] theorem State.updBasin_destroyed : (s.updBasin m f).destroyed = s.destroyed := rfl
@[simp] theorem State.updBasin_streams : (s.updBasin m f).streams = s.streams := rfl
@[simp] theorem State.updBasin_streamFree : (s.updBasin m f).streamFree = s.streamFree := rfl
@[simp] theorem State.updBasin_sched : (s.updBasin m f).sched = s.sched := rfl
@[simp] theorem State.updBasin_sync : (s.updBasin m f).sync = s.sync := rfl
@[simp] theorem State.updBasin_mem : (s.updBasin m f).mem = s.mem := rfl
@[simp] theorem State.updBasin_ledger : (s.updBasin m f).ledger = s.ledger := rfl
@[simp] theorem State.updBasin_kv : (s.updBasin m f).kv = s.kv := rfl
@[simp] theorem State.updBasin_ports : (s.updBasin m f).ports = s.ports := rfl
@[simp] theorem State.updBasin_valley : (s.updBasin m f).valley = s.valley := rfl
@[simp] theorem State.updBasin_coll : (s.updBasin m f).coll = s.coll := rfl
@[simp] theorem State.updBasin_media : (s.updBasin m f).media = s.media := rfl
@[simp] theorem State.updBasin_sec : (s.updBasin m f).sec = s.sec := rfl
@[simp] theorem State.updBasin_fw : (s.updBasin m f).fw = s.fw := rfl
@[simp] theorem State.updBasin_host : (s.updBasin m f).host = s.host := rfl
@[simp] theorem State.updBasin_readData : (s.updBasin m f).readData = s.readData := rfl
@[simp] theorem State.updBasin_fresh : (s.updBasin m f).fresh = s.fresh := rfl
@[simp] theorem State.updBasin_pending : (s.updBasin m f).pending = s.pending := rfl
end

/-! ### State.updPort -/

section
variable (s : State) (m : Nat) (f : Port → Port)
@[simp] theorem State.updPort_now : (s.updPort m f).now = s.now := rfl
@[simp] theorem State.updPort_time : (s.updPort m f).time = s.time := rfl
@[simp] theorem State.updPort_clk : (s.updPort m f).clk = s.clk := rfl
@[simp] theorem State.updPort_rails : (s.updPort m f).rails = s.rails := rfl
@[simp] theorem State.updPort_sup : (s.updPort m f).sup = s.sup := rfl
@[simp] theorem State.updPort_plains : (s.updPort m f).plains = s.plains := rfl
@[simp] theorem State.updPort_power : (s.updPort m f).power = s.power := rfl
@[simp] theorem State.updPort_boot : (s.updPort m f).boot = s.boot := rfl
@[simp] theorem State.updPort_flash : (s.updPort m f).flash = s.flash := rfl
@[simp] theorem State.updPort_prof : (s.updPort m f).prof = s.prof := rfl
@[simp] theorem State.updPort_fns : (s.updPort m f).fns = s.fns := rfl
@[simp] theorem State.updPort_hif : (s.updPort m f).hif = s.hif := rfl
@[simp] theorem State.updPort_mbx : (s.updPort m f).mbx = s.mbx := rfl
@[simp] theorem State.updPort_cp : (s.updPort m f).cp = s.cp := rfl
@[simp] theorem State.updPort_logs : (s.updPort m f).logs = s.logs := rfl
@[simp] theorem State.updPort_dbg : (s.updPort m f).dbg = s.dbg := rfl
@[simp] theorem State.updPort_parts : (s.updPort m f).parts = s.parts := rfl
@[simp] theorem State.updPort_destroyed : (s.updPort m f).destroyed = s.destroyed := rfl
@[simp] theorem State.updPort_streams : (s.updPort m f).streams = s.streams := rfl
@[simp] theorem State.updPort_streamFree : (s.updPort m f).streamFree = s.streamFree := rfl
@[simp] theorem State.updPort_sched : (s.updPort m f).sched = s.sched := rfl
@[simp] theorem State.updPort_sync : (s.updPort m f).sync = s.sync := rfl
@[simp] theorem State.updPort_mem : (s.updPort m f).mem = s.mem := rfl
@[simp] theorem State.updPort_basins : (s.updPort m f).basins = s.basins := rfl
@[simp] theorem State.updPort_ledger : (s.updPort m f).ledger = s.ledger := rfl
@[simp] theorem State.updPort_kv : (s.updPort m f).kv = s.kv := rfl
@[simp] theorem State.updPort_valley : (s.updPort m f).valley = s.valley := rfl
@[simp] theorem State.updPort_coll : (s.updPort m f).coll = s.coll := rfl
@[simp] theorem State.updPort_media : (s.updPort m f).media = s.media := rfl
@[simp] theorem State.updPort_sec : (s.updPort m f).sec = s.sec := rfl
@[simp] theorem State.updPort_fw : (s.updPort m f).fw = s.fw := rfl
@[simp] theorem State.updPort_host : (s.updPort m f).host = s.host := rfl
@[simp] theorem State.updPort_readData : (s.updPort m f).readData = s.readData := rfl
@[simp] theorem State.updPort_fresh : (s.updPort m f).fresh = s.fresh := rfl
@[simp] theorem State.updPort_pending : (s.updPort m f).pending = s.pending := rfl
end

/-! ### State.updPool -/

section
variable (s : State) (m : Nat) (f : KvPool → KvPool)
@[simp] theorem State.updPool_now : (s.updPool m f).now = s.now := rfl
@[simp] theorem State.updPool_time : (s.updPool m f).time = s.time := rfl
@[simp] theorem State.updPool_clk : (s.updPool m f).clk = s.clk := rfl
@[simp] theorem State.updPool_rails : (s.updPool m f).rails = s.rails := rfl
@[simp] theorem State.updPool_sup : (s.updPool m f).sup = s.sup := rfl
@[simp] theorem State.updPool_plains : (s.updPool m f).plains = s.plains := rfl
@[simp] theorem State.updPool_power : (s.updPool m f).power = s.power := rfl
@[simp] theorem State.updPool_boot : (s.updPool m f).boot = s.boot := rfl
@[simp] theorem State.updPool_flash : (s.updPool m f).flash = s.flash := rfl
@[simp] theorem State.updPool_prof : (s.updPool m f).prof = s.prof := rfl
@[simp] theorem State.updPool_fns : (s.updPool m f).fns = s.fns := rfl
@[simp] theorem State.updPool_hif : (s.updPool m f).hif = s.hif := rfl
@[simp] theorem State.updPool_mbx : (s.updPool m f).mbx = s.mbx := rfl
@[simp] theorem State.updPool_cp : (s.updPool m f).cp = s.cp := rfl
@[simp] theorem State.updPool_logs : (s.updPool m f).logs = s.logs := rfl
@[simp] theorem State.updPool_dbg : (s.updPool m f).dbg = s.dbg := rfl
@[simp] theorem State.updPool_parts : (s.updPool m f).parts = s.parts := rfl
@[simp] theorem State.updPool_destroyed : (s.updPool m f).destroyed = s.destroyed := rfl
@[simp] theorem State.updPool_streams : (s.updPool m f).streams = s.streams := rfl
@[simp] theorem State.updPool_streamFree : (s.updPool m f).streamFree = s.streamFree := rfl
@[simp] theorem State.updPool_sched : (s.updPool m f).sched = s.sched := rfl
@[simp] theorem State.updPool_sync : (s.updPool m f).sync = s.sync := rfl
@[simp] theorem State.updPool_mem : (s.updPool m f).mem = s.mem := rfl
@[simp] theorem State.updPool_basins : (s.updPool m f).basins = s.basins := rfl
@[simp] theorem State.updPool_ledger : (s.updPool m f).ledger = s.ledger := rfl
@[simp] theorem State.updPool_ports : (s.updPool m f).ports = s.ports := rfl
@[simp] theorem State.updPool_valley : (s.updPool m f).valley = s.valley := rfl
@[simp] theorem State.updPool_coll : (s.updPool m f).coll = s.coll := rfl
@[simp] theorem State.updPool_media : (s.updPool m f).media = s.media := rfl
@[simp] theorem State.updPool_sec : (s.updPool m f).sec = s.sec := rfl
@[simp] theorem State.updPool_fw : (s.updPool m f).fw = s.fw := rfl
@[simp] theorem State.updPool_host : (s.updPool m f).host = s.host := rfl
@[simp] theorem State.updPool_readData : (s.updPool m f).readData = s.readData := rfl
@[simp] theorem State.updPool_fresh : (s.updPool m f).fresh = s.fresh := rfl
@[simp] theorem State.updPool_pending : (s.updPool m f).pending = s.pending := rfl
end

/-! ### State.updStream -/

section
variable (s : State) (m : Nat) (f : Stream → Stream)
@[simp] theorem State.updStream_now : (s.updStream m f).now = s.now := rfl
@[simp] theorem State.updStream_time : (s.updStream m f).time = s.time := rfl
@[simp] theorem State.updStream_clk : (s.updStream m f).clk = s.clk := rfl
@[simp] theorem State.updStream_rails : (s.updStream m f).rails = s.rails := rfl
@[simp] theorem State.updStream_sup : (s.updStream m f).sup = s.sup := rfl
@[simp] theorem State.updStream_plains : (s.updStream m f).plains = s.plains := rfl
@[simp] theorem State.updStream_power : (s.updStream m f).power = s.power := rfl
@[simp] theorem State.updStream_boot : (s.updStream m f).boot = s.boot := rfl
@[simp] theorem State.updStream_flash : (s.updStream m f).flash = s.flash := rfl
@[simp] theorem State.updStream_prof : (s.updStream m f).prof = s.prof := rfl
@[simp] theorem State.updStream_fns : (s.updStream m f).fns = s.fns := rfl
@[simp] theorem State.updStream_hif : (s.updStream m f).hif = s.hif := rfl
@[simp] theorem State.updStream_mbx : (s.updStream m f).mbx = s.mbx := rfl
@[simp] theorem State.updStream_cp : (s.updStream m f).cp = s.cp := rfl
@[simp] theorem State.updStream_logs : (s.updStream m f).logs = s.logs := rfl
@[simp] theorem State.updStream_dbg : (s.updStream m f).dbg = s.dbg := rfl
@[simp] theorem State.updStream_parts : (s.updStream m f).parts = s.parts := rfl
@[simp] theorem State.updStream_destroyed : (s.updStream m f).destroyed = s.destroyed := rfl
@[simp] theorem State.updStream_streamFree : (s.updStream m f).streamFree = s.streamFree := rfl
@[simp] theorem State.updStream_sched : (s.updStream m f).sched = s.sched := rfl
@[simp] theorem State.updStream_sync : (s.updStream m f).sync = s.sync := rfl
@[simp] theorem State.updStream_mem : (s.updStream m f).mem = s.mem := rfl
@[simp] theorem State.updStream_basins : (s.updStream m f).basins = s.basins := rfl
@[simp] theorem State.updStream_ledger : (s.updStream m f).ledger = s.ledger := rfl
@[simp] theorem State.updStream_kv : (s.updStream m f).kv = s.kv := rfl
@[simp] theorem State.updStream_ports : (s.updStream m f).ports = s.ports := rfl
@[simp] theorem State.updStream_valley : (s.updStream m f).valley = s.valley := rfl
@[simp] theorem State.updStream_coll : (s.updStream m f).coll = s.coll := rfl
@[simp] theorem State.updStream_media : (s.updStream m f).media = s.media := rfl
@[simp] theorem State.updStream_sec : (s.updStream m f).sec = s.sec := rfl
@[simp] theorem State.updStream_fw : (s.updStream m f).fw = s.fw := rfl
@[simp] theorem State.updStream_host : (s.updStream m f).host = s.host := rfl
@[simp] theorem State.updStream_readData : (s.updStream m f).readData = s.readData := rfl
@[simp] theorem State.updStream_fresh : (s.updStream m f).fresh = s.fresh := rfl
@[simp] theorem State.updStream_pending : (s.updStream m f).pending = s.pending := rfl
end

/-! ### State.updObj -/

section
variable (s : State) (m : Nat) (f : SyncObj → SyncObj)
@[simp] theorem State.updObj_now : (s.updObj m f).now = s.now := rfl
@[simp] theorem State.updObj_time : (s.updObj m f).time = s.time := rfl
@[simp] theorem State.updObj_clk : (s.updObj m f).clk = s.clk := rfl
@[simp] theorem State.updObj_rails : (s.updObj m f).rails = s.rails := rfl
@[simp] theorem State.updObj_sup : (s.updObj m f).sup = s.sup := rfl
@[simp] theorem State.updObj_plains : (s.updObj m f).plains = s.plains := rfl
@[simp] theorem State.updObj_power : (s.updObj m f).power = s.power := rfl
@[simp] theorem State.updObj_boot : (s.updObj m f).boot = s.boot := rfl
@[simp] theorem State.updObj_flash : (s.updObj m f).flash = s.flash := rfl
@[simp] theorem State.updObj_prof : (s.updObj m f).prof = s.prof := rfl
@[simp] theorem State.updObj_fns : (s.updObj m f).fns = s.fns := rfl
@[simp] theorem State.updObj_hif : (s.updObj m f).hif = s.hif := rfl
@[simp] theorem State.updObj_mbx : (s.updObj m f).mbx = s.mbx := rfl
@[simp] theorem State.updObj_cp : (s.updObj m f).cp = s.cp := rfl
@[simp] theorem State.updObj_logs : (s.updObj m f).logs = s.logs := rfl
@[simp] theorem State.updObj_dbg : (s.updObj m f).dbg = s.dbg := rfl
@[simp] theorem State.updObj_parts : (s.updObj m f).parts = s.parts := rfl
@[simp] theorem State.updObj_destroyed : (s.updObj m f).destroyed = s.destroyed := rfl
@[simp] theorem State.updObj_streams : (s.updObj m f).streams = s.streams := rfl
@[simp] theorem State.updObj_streamFree : (s.updObj m f).streamFree = s.streamFree := rfl
@[simp] theorem State.updObj_sched : (s.updObj m f).sched = s.sched := rfl
@[simp] theorem State.updObj_mem : (s.updObj m f).mem = s.mem := rfl
@[simp] theorem State.updObj_basins : (s.updObj m f).basins = s.basins := rfl
@[simp] theorem State.updObj_ledger : (s.updObj m f).ledger = s.ledger := rfl
@[simp] theorem State.updObj_kv : (s.updObj m f).kv = s.kv := rfl
@[simp] theorem State.updObj_ports : (s.updObj m f).ports = s.ports := rfl
@[simp] theorem State.updObj_valley : (s.updObj m f).valley = s.valley := rfl
@[simp] theorem State.updObj_coll : (s.updObj m f).coll = s.coll := rfl
@[simp] theorem State.updObj_media : (s.updObj m f).media = s.media := rfl
@[simp] theorem State.updObj_sec : (s.updObj m f).sec = s.sec := rfl
@[simp] theorem State.updObj_fw : (s.updObj m f).fw = s.fw := rfl
@[simp] theorem State.updObj_host : (s.updObj m f).host = s.host := rfl
@[simp] theorem State.updObj_readData : (s.updObj m f).readData = s.readData := rfl
@[simp] theorem State.updObj_fresh : (s.updObj m f).fresh = s.fresh := rfl
@[simp] theorem State.updObj_pending : (s.updObj m f).pending = s.pending := rfl
end

/-! ### A unit of one kind after an update of another kind -/

section
variable (s : State) (m n : Nat) (f : Mailbox → Mailbox)
@[simp] theorem State.updMb_at_fn : (s.updMb m f).fn n = s.fn n := rfl
@[simp] theorem State.updMb_at_plain : (s.updMb m f).plain n = s.plain n := rfl
@[simp] theorem State.updMb_at_rail : (s.updMb m f).rail n = s.rail n := rfl
@[simp] theorem State.updMb_at_part : (s.updMb m f).part n = s.part n := rfl
@[simp] theorem State.updMb_at_basin : (s.updMb m f).basin n = s.basin n := rfl
@[simp] theorem State.updMb_at_port : (s.updMb m f).port n = s.port n := rfl
@[simp] theorem State.updMb_at_pool : (s.updMb m f).pool n = s.pool n := rfl
@[simp] theorem State.updMb_at_window (w : Nat) : (s.updMb m f).window n w = s.window n w := rfl
@[simp] theorem State.updMb_at_stream : (s.updMb m f).stream? n = s.stream? n := rfl
@[simp] theorem State.updMb_at_sobj : (s.updMb m f).sobj? n = s.sobj? n := rfl
end

section
variable (s : State) (m n : Nat) (f : Fn → Fn)
@[simp] theorem State.updFn_at_mb : (s.updFn m f).mb n = s.mb n := rfl
@[simp] theorem State.updFn_at_plain : (s.updFn m f).plain n = s.plain n := rfl
@[simp] theorem State.updFn_at_rail : (s.updFn m f).rail n = s.rail n := rfl
@[simp] theorem State.updFn_at_part : (s.updFn m f).part n = s.part n := rfl
@[simp] theorem State.updFn_at_basin : (s.updFn m f).basin n = s.basin n := rfl
@[simp] theorem State.updFn_at_port : (s.updFn m f).port n = s.port n := rfl
@[simp] theorem State.updFn_at_pool : (s.updFn m f).pool n = s.pool n := rfl
@[simp] theorem State.updFn_at_stream : (s.updFn m f).stream? n = s.stream? n := rfl
@[simp] theorem State.updFn_at_sobj : (s.updFn m f).sobj? n = s.sobj? n := rfl
end

section
variable (s : State) (m n : Nat) (f : Plain → Plain)
@[simp] theorem State.updPlain_at_mb : (s.updPlain m f).mb n = s.mb n := rfl
@[simp] theorem State.updPlain_at_fn : (s.updPlain m f).fn n = s.fn n := rfl
@[simp] theorem State.updPlain_at_rail : (s.updPlain m f).rail n = s.rail n := rfl
@[simp] theorem State.updPlain_at_part : (s.updPlain m f).part n = s.part n := rfl
@[simp] theorem State.updPlain_at_basin : (s.updPlain m f).basin n = s.basin n := rfl
@[simp] theorem State.updPlain_at_port : (s.updPlain m f).port n = s.port n := rfl
@[simp] theorem State.updPlain_at_pool : (s.updPlain m f).pool n = s.pool n := rfl
@[simp] theorem State.updPlain_at_window (w : Nat) : (s.updPlain m f).window n w = s.window n w := rfl
@[simp] theorem State.updPlain_at_stream : (s.updPlain m f).stream? n = s.stream? n := rfl
@[simp] theorem State.updPlain_at_sobj : (s.updPlain m f).sobj? n = s.sobj? n := rfl
end

section
variable (s : State) (m n : Nat) (f : Rail → Rail)
@[simp] theorem State.updRail_at_mb : (s.updRail m f).mb n = s.mb n := rfl
@[simp] theorem State.updRail_at_fn : (s.updRail m f).fn n = s.fn n := rfl
@[simp] theorem State.updRail_at_plain : (s.updRail m f).plain n = s.plain n := rfl
@[simp] theorem State.updRail_at_part : (s.updRail m f).part n = s.part n := rfl
@[simp] theorem State.updRail_at_basin : (s.updRail m f).basin n = s.basin n := rfl
@[simp] theorem State.updRail_at_port : (s.updRail m f).port n = s.port n := rfl
@[simp] theorem State.updRail_at_pool : (s.updRail m f).pool n = s.pool n := rfl
@[simp] theorem State.updRail_at_window (w : Nat) : (s.updRail m f).window n w = s.window n w := rfl
@[simp] theorem State.updRail_at_stream : (s.updRail m f).stream? n = s.stream? n := rfl
@[simp] theorem State.updRail_at_sobj : (s.updRail m f).sobj? n = s.sobj? n := rfl
end

section
variable (s : State) (m n : Nat) (f : Part → Part)
@[simp] theorem State.updPart_at_mb : (s.updPart m f).mb n = s.mb n := rfl
@[simp] theorem State.updPart_at_fn : (s.updPart m f).fn n = s.fn n := rfl
@[simp] theorem State.updPart_at_plain : (s.updPart m f).plain n = s.plain n := rfl
@[simp] theorem State.updPart_at_rail : (s.updPart m f).rail n = s.rail n := rfl
@[simp] theorem State.updPart_at_basin : (s.updPart m f).basin n = s.basin n := rfl
@[simp] theorem State.updPart_at_port : (s.updPart m f).port n = s.port n := rfl
@[simp] theorem State.updPart_at_pool : (s.updPart m f).pool n = s.pool n := rfl
@[simp] theorem State.updPart_at_window (w : Nat) : (s.updPart m f).window n w = s.window n w := rfl
@[simp] theorem State.updPart_at_stream : (s.updPart m f).stream? n = s.stream? n := rfl
@[simp] theorem State.updPart_at_sobj : (s.updPart m f).sobj? n = s.sobj? n := rfl
end

section
variable (s : State) (m n : Nat) (f : Basin → Basin)
@[simp] theorem State.updBasin_at_mb : (s.updBasin m f).mb n = s.mb n := rfl
@[simp] theorem State.updBasin_at_fn : (s.updBasin m f).fn n = s.fn n := rfl
@[simp] theorem State.updBasin_at_plain : (s.updBasin m f).plain n = s.plain n := rfl
@[simp] theorem State.updBasin_at_rail : (s.updBasin m f).rail n = s.rail n := rfl
@[simp] theorem State.updBasin_at_part : (s.updBasin m f).part n = s.part n := rfl
@[simp] theorem State.updBasin_at_port : (s.updBasin m f).port n = s.port n := rfl
@[simp] theorem State.updBasin_at_pool : (s.updBasin m f).pool n = s.pool n := rfl
@[simp] theorem State.updBasin_at_window (w : Nat) : (s.updBasin m f).window n w = s.window n w := rfl
@[simp] theorem State.updBasin_at_stream : (s.updBasin m f).stream? n = s.stream? n := rfl
@[simp] theorem State.updBasin_at_sobj : (s.updBasin m f).sobj? n = s.sobj? n := rfl
end

section
variable (s : State) (m n : Nat) (f : Port → Port)
@[simp] theorem State.updPort_at_mb : (s.updPort m f).mb n = s.mb n := rfl
@[simp] theorem State.updPort_at_fn : (s.updPort m f).fn n = s.fn n := rfl
@[simp] theorem State.updPort_at_plain : (s.updPort m f).plain n = s.plain n := rfl
@[simp] theorem State.updPort_at_rail : (s.updPort m f).rail n = s.rail n := rfl
@[simp] theorem State.updPort_at_part : (s.updPort m f).part n = s.part n := rfl
@[simp] theorem State.updPort_at_basin : (s.updPort m f).basin n = s.basin n := rfl
@[simp] theorem State.updPort_at_pool : (s.updPort m f).pool n = s.pool n := rfl
@[simp] theorem State.updPort_at_window (w : Nat) : (s.updPort m f).window n w = s.window n w := rfl
@[simp] theorem State.updPort_at_stream : (s.updPort m f).stream? n = s.stream? n := rfl
@[simp] theorem State.updPort_at_sobj : (s.updPort m f).sobj? n = s.sobj? n := rfl
end

section
variable (s : State) (m n : Nat) (f : KvPool → KvPool)
@[simp] theorem State.updPool_at_mb : (s.updPool m f).mb n = s.mb n := rfl
@[simp] theorem State.updPool_at_fn : (s.updPool m f).fn n = s.fn n := rfl
@[simp] theorem State.updPool_at_plain : (s.updPool m f).plain n = s.plain n := rfl
@[simp] theorem State.updPool_at_rail : (s.updPool m f).rail n = s.rail n := rfl
@[simp] theorem State.updPool_at_part : (s.updPool m f).part n = s.part n := rfl
@[simp] theorem State.updPool_at_basin : (s.updPool m f).basin n = s.basin n := rfl
@[simp] theorem State.updPool_at_port : (s.updPool m f).port n = s.port n := rfl
@[simp] theorem State.updPool_at_window (w : Nat) : (s.updPool m f).window n w = s.window n w := rfl
@[simp] theorem State.updPool_at_stream : (s.updPool m f).stream? n = s.stream? n := rfl
@[simp] theorem State.updPool_at_sobj : (s.updPool m f).sobj? n = s.sobj? n := rfl
end

section
variable (s : State) (m n : Nat) (f : Stream → Stream)
@[simp] theorem State.updStream_at_mb : (s.updStream m f).mb n = s.mb n := rfl
@[simp] theorem State.updStream_at_fn : (s.updStream m f).fn n = s.fn n := rfl
@[simp] theorem State.updStream_at_plain : (s.updStream m f).plain n = s.plain n := rfl
@[simp] theorem State.updStream_at_rail : (s.updStream m f).rail n = s.rail n := rfl
@[simp] theorem State.updStream_at_part : (s.updStream m f).part n = s.part n := rfl
@[simp] theorem State.updStream_at_basin : (s.updStream m f).basin n = s.basin n := rfl
@[simp] theorem State.updStream_at_port : (s.updStream m f).port n = s.port n := rfl
@[simp] theorem State.updStream_at_pool : (s.updStream m f).pool n = s.pool n := rfl
@[simp] theorem State.updStream_at_window (w : Nat) : (s.updStream m f).window n w = s.window n w := rfl
@[simp] theorem State.updStream_at_sobj : (s.updStream m f).sobj? n = s.sobj? n := rfl
end

section
variable (s : State) (m n : Nat) (f : SyncObj → SyncObj)
@[simp] theorem State.updObj_at_mb : (s.updObj m f).mb n = s.mb n := rfl
@[simp] theorem State.updObj_at_fn : (s.updObj m f).fn n = s.fn n := rfl
@[simp] theorem State.updObj_at_plain : (s.updObj m f).plain n = s.plain n := rfl
@[simp] theorem State.updObj_at_rail : (s.updObj m f).rail n = s.rail n := rfl
@[simp] theorem State.updObj_at_part : (s.updObj m f).part n = s.part n := rfl
@[simp] theorem State.updObj_at_basin : (s.updObj m f).basin n = s.basin n := rfl
@[simp] theorem State.updObj_at_port : (s.updObj m f).port n = s.port n := rfl
@[simp] theorem State.updObj_at_pool : (s.updObj m f).pool n = s.pool n := rfl
@[simp] theorem State.updObj_at_window (w : Nat) : (s.updObj m f).window n w = s.window n w := rfl
@[simp] theorem State.updObj_at_stream : (s.updObj m f).stream? n = s.stream? n := rfl
end

/-! ### State.updWindow -/

section
variable (s : State) (m w : Nat) (g : Window → Window)
@[simp] theorem State.updWindow_now : (s.updWindow m w g).now = s.now := rfl
@[simp] theorem State.updWindow_time : (s.updWindow m w g).time = s.time := rfl
@[simp] theorem State.updWindow_clk : (s.updWindow m w g).clk = s.clk := rfl
@[simp] theorem State.updWindow_rails : (s.updWindow m w g).rails = s.rails := rfl
@[simp] theorem State.updWindow_sup : (s.updWindow m w g).sup = s.sup := rfl
@[simp] theorem State.updWindow_plains : (s.updWindow m w g).plains = s.plains := rfl
@[simp] theorem State.updWindow_power : (s.updWindow m w g).power = s.power := rfl
@[simp] theorem State.updWindow_boot : (s.updWindow m w g).boot = s.boot := rfl
@[simp] theorem State.updWindow_flash : (s.updWindow m w g).flash = s.flash := rfl
@[simp] theorem State.updWindow_prof : (s.updWindow m w g).prof = s.prof := rfl
@[simp] theorem State.updWindow_hif : (s.updWindow m w g).hif = s.hif := rfl
@[simp] theorem State.updWindow_mbx : (s.updWindow m w g).mbx = s.mbx := rfl
@[simp] theorem State.updWindow_cp : (s.updWindow m w g).cp = s.cp := rfl
@[simp] theorem State.updWindow_logs : (s.updWindow m w g).logs = s.logs := rfl
@[simp] theorem State.updWindow_dbg : (s.updWindow m w g).dbg = s.dbg := rfl
@[simp] theorem State.updWindow_parts : (s.updWindow m w g).parts = s.parts := rfl
@[simp] theorem State.updWindow_destroyed : (s.updWindow m w g).destroyed = s.destroyed := rfl
@[simp] theorem State.updWindow_streams : (s.updWindow m w g).streams = s.streams := rfl
@[simp] theorem State.updWindow_streamFree : (s.updWindow m w g).streamFree = s.streamFree := rfl
@[simp] theorem State.updWindow_sched : (s.updWindow m w g).sched = s.sched := rfl
@[simp] theorem State.updWindow_sync : (s.updWindow m w g).sync = s.sync := rfl
@[simp] theorem State.updWindow_mem : (s.updWindow m w g).mem = s.mem := rfl
@[simp] theorem State.updWindow_basins : (s.updWindow m w g).basins = s.basins := rfl
@[simp] theorem State.updWindow_ledger : (s.updWindow m w g).ledger = s.ledger := rfl
@[simp] theorem State.updWindow_kv : (s.updWindow m w g).kv = s.kv := rfl
@[simp] theorem State.updWindow_ports : (s.updWindow m w g).ports = s.ports := rfl
@[simp] theorem State.updWindow_valley : (s.updWindow m w g).valley = s.valley := rfl
@[simp] theorem State.updWindow_coll : (s.updWindow m w g).coll = s.coll := rfl
@[simp] theorem State.updWindow_media : (s.updWindow m w g).media = s.media := rfl
@[simp] theorem State.updWindow_sec : (s.updWindow m w g).sec = s.sec := rfl
@[simp] theorem State.updWindow_fw : (s.updWindow m w g).fw = s.fw := rfl
@[simp] theorem State.updWindow_host : (s.updWindow m w g).host = s.host := rfl
@[simp] theorem State.updWindow_readData : (s.updWindow m w g).readData = s.readData := rfl
@[simp] theorem State.updWindow_fresh : (s.updWindow m w g).fresh = s.fresh := rfl
@[simp] theorem State.updWindow_pending : (s.updWindow m w g).pending = s.pending := rfl
end

/-! ### finish -/

section
variable (s t : State)
@[simp] theorem finish_now : (finish s t).now = t.now := rfl
@[simp] theorem finish_time : (finish s t).time = t.time := rfl
@[simp] theorem finish_clk : (finish s t).clk = t.clk := rfl
@[simp] theorem finish_rails : (finish s t).rails = t.rails := rfl
@[simp] theorem finish_sup : (finish s t).sup = t.sup := rfl
@[simp] theorem finish_plains : (finish s t).plains = t.plains := rfl
@[simp] theorem finish_power : (finish s t).power = t.power := rfl
@[simp] theorem finish_boot : (finish s t).boot = t.boot := rfl
@[simp] theorem finish_flash : (finish s t).flash = t.flash := rfl
@[simp] theorem finish_prof : (finish s t).prof = t.prof := rfl
@[simp] theorem finish_fns : (finish s t).fns = t.fns := rfl
@[simp] theorem finish_hif : (finish s t).hif = t.hif := rfl
@[simp] theorem finish_mbx : (finish s t).mbx = t.mbx := rfl
@[simp] theorem finish_cp : (finish s t).cp = t.cp := rfl
@[simp] theorem finish_logs : (finish s t).logs = t.logs := rfl
@[simp] theorem finish_dbg : (finish s t).dbg = t.dbg := rfl
@[simp] theorem finish_parts : (finish s t).parts = t.parts := rfl
@[simp] theorem finish_destroyed : (finish s t).destroyed = t.destroyed := rfl
@[simp] theorem finish_streams : (finish s t).streams = t.streams := rfl
@[simp] theorem finish_streamFree : (finish s t).streamFree = t.streamFree := rfl
@[simp] theorem finish_sched : (finish s t).sched = t.sched := rfl
@[simp] theorem finish_sync : (finish s t).sync = t.sync := rfl
@[simp] theorem finish_basins : (finish s t).basins = t.basins := rfl
@[simp] theorem finish_ledger : (finish s t).ledger = t.ledger := rfl
@[simp] theorem finish_kv : (finish s t).kv = t.kv := rfl
@[simp] theorem finish_ports : (finish s t).ports = t.ports := rfl
@[simp] theorem finish_valley : (finish s t).valley = t.valley := rfl
@[simp] theorem finish_coll : (finish s t).coll = t.coll := rfl
@[simp] theorem finish_media : (finish s t).media = t.media := rfl
@[simp] theorem finish_sec : (finish s t).sec = t.sec := rfl
@[simp] theorem finish_fw : (finish s t).fw = t.fw := rfl
@[simp] theorem finish_host : (finish s t).host = t.host := rfl
@[simp] theorem finish_readData : (finish s t).readData = t.readData := rfl
@[simp] theorem finish_fresh : (finish s t).fresh = t.fresh := rfl
@[simp] theorem finish_pending : (finish s t).pending = s.pending := rfl
@[simp] theorem finish_mem_poison : (finish s t).mem.poison = t.mem.poison := rfl
@[simp] theorem finish_mem_allocs : (finish s t).mem.allocs = t.mem.allocs := rfl
@[simp] theorem finish_mem_filled : (finish s t).mem.filled = t.mem.filled := rfl
@[simp] theorem finish_mem_retired : (finish s t).mem.retired = t.mem.retired := rfl
@[simp] theorem finish_mem_retireOnFree : (finish s t).mem.retireOnFree = t.mem.retireOnFree := rfl
@[simp] theorem finish_mem_scrubbing : (finish s t).mem.scrubbing = t.mem.scrubbing := rfl
@[simp] theorem finish_mem_rekeyed : (finish s t).mem.rekeyed = t.mem.rekeyed := rfl
@[simp] theorem finish_mem_rotations : (finish s t).mem.rotations = t.mem.rotations := rfl
@[simp] theorem finish_mem_live : (finish s t).mem.live = t.mem.live := rfl
@[simp] theorem finish_mem_panels : (finish s t).mem.panels = t.mem.panels := rfl
@[simp] theorem finish_mem_cells : (finish s t).mem.cells = commitOps s.mem.cells t.mem.ops := rfl
@[simp] theorem finish_mem_ops : (finish s t).mem.ops = [] := rfl
end

/-! ### Units of one kind -/

/-- The unit read after an update of it. -/
theorem updAt_getD {α : Type} (l : List α) (i : Nat) (f : α → α) (d : α) (h : i < l.length) :
    (updAt l i f).getD i d = f (l.getD i d) := by
  induction l generalizing i with
  | nil => simp at h
  | cons x r ih =>
    cases i with
    | zero => simp [updAt]
    | succ n => simpa [updAt] using ih n (by simpa using h)

/-- Another unit read after an update. -/
theorem updAt_getD_ne {α : Type} (l : List α) (i j : Nat) (f : α → α) (d : α) (h : i ≠ j) :
    (updAt l i f).getD j d = l.getD j d := by
  induction l generalizing i j with
  | nil => simp [updAt]
  | cons x r ih =>
    cases i with
    | zero => cases j with
      | zero => simp at h
      | succ k => simp [updAt]
    | succ n => cases j with
      | zero => simp [updAt]
      | succ k => simpa [updAt] using ih n k (by omega)

end Sys2Proof.Machine
end

