-- ==== Sys2Proof/Laws/Lolin.lean ====
section
/-! SUPPORT. What the frame of a Lolin command row does, case by case, and what the arrival of a message does. -/
namespace Sys2Proof.Machine
open Sys2Proof

/-- Why a taken command cannot be interpreted yet, one reason after the other. -/
theorem notYet_iff {s : State} {m : Nat} {c : Cmd} {e : Block} {t : Taken} :
    s.notYet m c e t = true ↔ t.waiting = true ∨ t.done.isSome = true ∨ sameEntry t.entry e = false ∨ s.cpReads = false ∨
      (s.mb m).inTurn c.reqId = false ∨ s.inTime m t.stamp = false := by
  unfold State.notYet
  generalize sameEntry t.entry e = a
  generalize s.cpReads = b
  generalize (s.mb m).inTurn c.reqId = d
  generalize s.inTime m t.stamp = f
  cases t.waiting <;> cases t.done.isSome <;> cases a <;> cases b <;> cases d <;> cases f <;> simp

/-- What the frame of a row does with a command that is taken: nothing while it cannot be interpreted; else what the first check that
fails answers, or its effect, and then the refusals whose turn has come. -/
theorem lolin_taken {op m : Nat} {c : Cmd} {s : State} {t : Taken} {chk : State → Block → Taken → Option (Nat × Nat)}
    {eff : State → Req → Taken → State} (h : s.taken ⟨m, c.reqId⟩ = some t) :
    lolin op m c s chk eff =
      if s.notYet m c (entryOf c op) t then s
      else State.refuseDue (match precheck s m (entryOf c op) with
        | some (st, res) => s.complete ⟨m, c.reqId⟩ st res
        | none => match chk s (entryOf c op) t with
          | some (st, res) => s.complete ⟨m, c.reqId⟩ st res
          | none => if c.cut then s.cutShort ⟨m, c.reqId⟩ (eff · ⟨m, c.reqId⟩ t) else eff s ⟨m, c.reqId⟩ t) m := by
  have hp : s.present ⟨m, c.reqId⟩ (entryOf c op) = s := by rw [State.present, h, Option.isSome_some, if_pos rfl]
  unfold lolin
  rw [hp]
  unfold interpret
  simp only [h]
  all_goals
    generalize s.notYet m c (entryOf c op) t = b
    generalize chk s (entryOf c op) t = k
    generalize precheck s m (entryOf c op) = p
    cases p <;> cases k <;> rfl

/-- A taken command that cannot be interpreted yet is left alone. -/
theorem lolin_idle {op m : Nat} {c : Cmd} {s : State} {t : Taken} {chk : State → Block → Taken → Option (Nat × Nat)}
    {eff : State → Req → Taken → State} (h : s.taken ⟨m, c.reqId⟩ = some t) (hc : s.notYet m c (entryOf c op) t = true) :
    lolin op m c s chk eff = s := by
  rw [lolin_taken h, if_pos hc]

/-- A command that reaches its own check and passes it has its effect. -/
theorem lolin_effect {op m : Nat} {c : Cmd} {s : State} {t : Taken} {chk : State → Block → Taken → Option (Nat × Nat)}
    {eff : State → Req → Taken → State} (h : Accepted op m c s t) (hc : chk s (entryOf c op) t = none) :
    lolin op m c s chk eff = (eff s ⟨m, c.reqId⟩ t).refuseDue m := by
  obtain ⟨-, h0, h1, h2, h3⟩ := h
  rw [lolin_taken h1]
  simp [h0, h2, h3, hc]

/-- A command that reaches its own check and fails it is answered with what the check says. -/
theorem lolin_refused {op m : Nat} {c : Cmd} {s : State} {t : Taken} {chk : State → Block → Taken → Option (Nat × Nat)}
    {eff : State → Req → Taken → State} {st res : Nat} (h : Accepted op m c s t)
    (hc : chk s (entryOf c op) t = some (st, res)) :
    lolin op m c s chk eff = (s.complete ⟨m, c.reqId⟩ st res).refuseDue m := by
  obtain ⟨-, h0, h1, h2, h3⟩ := h
  rw [lolin_taken h1]
  simp [h2, h3, hc]

/-- A message that is delivered does what its row says, once it has been taken from the port's buffer. -/
theorem arrive_delivered {s : State} {p : Nat} {g : Msg} (h : Delivered p g s) (f : State → State) :
    s.arrive p g f = s.onward p g (f (s.taken1 p g)) := by
  obtain ⟨-, h1, h2, h3, h4⟩ := h
  have e1 : (s.taken1 p g).chip = s.chip := by unfold State.taken1; split <;> rfl
  have e2 : (s.taken1 p g).isLost g.src = s.isLost g.src := by unfold State.taken1; split <;> rfl
  have e3 : (if (s.front p (vcOf g.typ) == some g) = true then s.updPort p fun x => x.eat (vcOf g.typ) (msgBytes g).length
      else s) = s.taken1 p g := by
    unfold State.taken1
    by_cases hh : s.front p (vcOf g.typ) = some g <;> simp [hh]
  unfold State.arrive State.onward
  dsimp only
  rw [e3]
  generalize s.taken1 p g = t at *
  have c1 : ¬(g.dst != t.chip && vcOf g.typ != 3) = true := by rw [e1]; rcases h3 with h3 | h3 <;> simp [h3]
  have c2 : ¬(t.isLost g.src && g.typ != mJoin) = true := by rw [e2]; rcases h4 with h4 | h4 <;> simp [h4]
  rw [if_neg (by simp [h1]), if_neg (by rcases h2 with h2 | h2 <;> simp [h2]), if_neg c1, if_neg c2]
  by_cases hh : s.front p (vcOf g.typ) = some g <;> simp [hh]

/-- What an operation row does once its operands are within reach. -/
theorem operate_go {s : State} {i d op : Nat} {rg : State → Op → List (Nat × Nat) × List (Nat × Nat)} {eff : State → Op → State}
    {bl : State → Op → Option Nat} {o : Op} (h : s.op? i d op = some o) (hb : bl s o = none)
    (hr : s.reach o (rg s o).1 (rg s o).2 = .go) :
    s.operate i d op rg eff bl = (eff s o).opDone o (rg s o).1 (rg s o).2 := by
  unfold State.operate
  simp only [h, hb]
  rw [hr]

end Sys2Proof.Machine
end

