-- ==== Sys2Proof/Laws/Memory.lean ====
section
/-! SUPPORT. The canonical form of the memory list is kept by every operation on it, and reset has it. -/
namespace Sys2Proof.Machine

/-- The canonical form of a list with a head: the byte is listed for a reason, the rest lies above it and is canonical. -/
theorem cellsWf_cons (c : Host.Cell) (r : List Host.Cell) :
    cellsWf (c :: r) = true ↔ c.2 ≠ 0 ∧ (∀ d ∈ r, c.1 < d.1) ∧ cellsWf r = true := by
  induction r generalizing c with
  | nil => simp [cellsWf]
  | cons d r ih =>
    simp only [cellsWf, Bool.and_eq_true, bne_iff_ne, decide_eq_true_eq, List.mem_cons, forall_eq_or_imp, ih]
    constructor
    · rintro ⟨⟨h1, h2⟩, h3⟩
      exact ⟨h1, ⟨h2, fun x hx => h2.trans (h3.2.1 x hx)⟩, h3⟩
    · rintro ⟨h1, ⟨h2, _⟩, h3⟩
      exact ⟨⟨h1, h2⟩, h3⟩

/-- A byte put lists its address and no other new one. -/
theorem mem_cellPut {l : List Host.Cell} {k : Nat} {v : Byte} {c : Host.Cell} (h : c ∈ cellPut 0 l k v) :
    c = (k, v) ∨ c ∈ l := by
  induction l with
  | nil =>
    simp only [cellPut] at h
    split at h <;> simp_all
  | cons a r ih =>
    obtain ⟨a, b⟩ := a
    simp only [cellPut] at h
    split_ifs at h <;> simp only [List.mem_cons] at h ⊢ <;> tauto

theorem cellPut_wf (l : List Host.Cell) (k : Nat) (v : Byte) (h : cellsWf l = true) :
    cellsWf (cellPut 0 l k v) = true := by
  induction l with
  | nil =>
    simp only [cellPut]
    split
    · rfl
    · simp_all [cellsWf]
  | cons a r ih =>
    obtain ⟨a, b⟩ := a
    obtain ⟨h1, h2, h3⟩ := (cellsWf_cons _ _).1 h
    simp only [cellPut]
    split_ifs with ha hv hk hv'
    · exact h
    · refine (cellsWf_cons _ _).2 ⟨hv, fun d hd => ?_, h⟩
      rcases List.mem_cons.1 hd with rfl | hd
      · exact ha
      · exact ha.trans (h2 d hd)
    · exact h3
    · exact (cellsWf_cons _ _).2 ⟨hv', fun d hd => hk ▸ h2 d hd, h3⟩
    · refine (cellsWf_cons _ _).2 ⟨h1, fun d hd => ?_, ih h3⟩
      rcases mem_cellPut hd with rfl | hd
      · change a < k
        omega
      · exact h2 d hd

theorem cellClear_wf (l : List Host.Cell) (lo hi : Nat) (h : cellsWf l = true) :
    cellsWf (cellClear l lo hi) = true := by
  induction l with
  | nil => rfl
  | cons a r ih =>
    obtain ⟨h1, h2, h3⟩ := (cellsWf_cons _ _).1 h
    have hr := ih h3
    simp only [cellClear, List.filter_cons] at hr ⊢
    split
    · exact (cellsWf_cons _ _).2 ⟨h1, fun d hd => h2 d (List.mem_filter.1 hd).1, hr⟩
    · exact hr

/-- Committing a command's stores keeps the canonical form. -/
theorem commitOps_wf (l : List Host.Cell) (ops : List MemOp) (h : cellsWf l = true) :
    cellsWf (commitOps l ops) = true := by
  induction ops with
  | nil => exact h
  | cons o r ih =>
    cases o with
    | put a b => exact cellPut_wf _ _ _ ih
    | zero lo hi => exact cellClear_wf _ _ _ ih

/-- The end of a command keeps the canonical form, whatever the command did. -/
theorem finish_mem_wf (s t : State) (h : s.mem.wf = true) : (finish s t).mem.wf = true := by
  simp only [Memory.wf, Bool.and_eq_true] at h
  simp [Memory.wf, commitOps_wf _ _ h.1]

/-- A command that `run` carries keeps the canonical form. -/
theorem run_mem_wf (on : State → Bool) (s t : State) (f : State → State) (h : s.mem.wf = true)
    (e : run on s f = .next t) : t.mem.wf = true := by
  simp only [run, Host.Outcome.next.injEq] at e
  subst e
  split
  · exact finish_mem_wf _ _ h
  · exact h

theorem cellPuts_wf (l : List Host.Cell) (k : Nat) (v : List Byte) (h : cellsWf l = true) :
    cellsWf (cellPuts 0 l k v) = true := by
  induction v generalizing l k with
  | nil => exact h
  | cons b r ih => exact ih _ _ (cellPut_wf _ _ _ h)

/-- Reset lists nothing. -/
theorem reset_mem_wf : State.reset.mem.wf = true := by decide

end Sys2Proof.Machine
end

