-- ==== Sys2Proof/WellFormed.lean ====
section
/-! DEFINITION. Which commands name units that exist: mailboxes and functions 0 to 32, partitions, Plains, ports, Basins and the rest at their numbers (R4, R5, chapter 00 and the tables of each chapter). A command outside these ranges names nothing the device has. -/
namespace Sys2Proof

/-- Every operand that numbers a unit lies in the range the spec gives that unit. -/
def Instr.wellFormed (i : Instr) : Bool :=
  match i with
  | .devInfo m _ | .devCaps m _ | .devTimeGet m _ | .devResetWarm m _ | .devPowerState m _ | .profileApply m _
  | .profileWrite m _ | .profileRead m _ | .partCreate m _ | .partDestroy m _ | .partReset m _ | .partQuery m _
  | .streamOpen m _ | .streamSubmit m _ | .streamCancel m _ | .streamClose m _ | .streamQuery m _ | .memAlloc m _
  | .memFree m _ | .ledgerReserve m _ | .ledgerRelease m _ | .ledgerQuery m _ | .kvPoolCreate m _
  | .kvPoolDestroy m _ | .kvFork m _ | .kvTruncate m _ | .kvPinPrefix m _ | .syncAlloc m _ | .syncFree m _
  | .syncRecover m _ | .syncQuery m _ | .fordMap m _ | .fordUnmap m _ | .mediaEncOpen m _ | .mediaEncClose m _
  | .mediaDecOpen m _ | .mediaDecFlush m _ | .mediaDecClose m _ | .mediaKeyRequest m _ | .mediaRoiSet m _
  | .mediaLayerSet m _ | .passRetrain m _ | .passStatus m _ | .valleyJoin m _ | .valleyLeave m _
  | .valleyRouteSet m _ | .collGroupCreate m _ | .collGroupDestroy m _ | .acctRead m _ | .acctModeSet m _
  | .secAttest m _ | .secDebugChallenge m _ | .secDebugUnlock m _ | .secDebugLock m _ | .secLifecycleSet m _
  | .fwDownload m _ | .fwVerify m _ | .fwActivate m _ | .fwConfirm m _ | .fwStatus m _ | .testDefectsRead m _
  | .testRun m _ | .hbmRepair m _ | .hbmRetrain m _ | .railStatus m _ | .railThreshSet m _ | .thermalQuery m _
  | .mbxSqTailWrite m _ _ | .entryTake m _ | .mbxEnable m _ | .mbxDisable m _ | .mbxCqHeadWrite m _ _ | .mbxEqHeadWrite m _ _
  | .keeperBar0Access m _ _ | .fordDataWrite m _ _ _ _ | .bar2UnmappedAccess m _ _ _ | .loRegisterRead m _ _ _
  | .configurationRequest m _ _ _ => m ≤ 32
  | .evtCoalTimer m vector => m ≤ 32 && vector < 2
  | .cpFreqTargetSet plain code => plain < 16 && code ≤ 104
  | .avsVoltageWrite quad _ | .avsSettled quad | .avsSettleTimeout quad => quad < 4
  | .plainFreqStep plain | .generatorLock plain | .plainThermalSample plain _ | .plainFreqLimitStep plain
  | .plainThrottleRelease plain | .plainThermalTrip plain _ | .plainIdle plain | .plainRetEntry plain
  | .plainRetExitDone plain | .plainOff plain | .plainPowerUpDone plain => plain < 16
  | .refFreqEstimate _ | .ppsInEdge _ | .pmbAlert _ | .pmbusTelemetryPoll _ _ | .pwrWakeWrite _ | .pldmSensorRead _
  | .secureBootDone _ _ | .startTestDone _ | .spdmRequest _ _ | .ptmDialogue _ | .pwrAlertCauseWrite _
  | .dbgMemDataHiWrite _ | .dbgCpHalt _ | .dbgCpStep _ | .saddleParityError _ _ | .testRunDone _ _
  | .jtagInstruction _ | .cpHeartbeatTick | .cpException | .cpWatchdogExpiry | .cpRestartDone | .refLossDeclared _
  | .refQualified | .relockComplete | .ppsLost | .ppsOutRise | .ppsOutFall | .vddAonPowerOn | .vddAonPowerLoss
  | .level2Expiry | .railFaultRecordWritten | .chipStateReached | .stbySaveDone | .pciePmWake | .pldmSetStateEffecter
  | .chipWake | .stbyRestoreDone | .perstNAssert | .perstNRelease | .pcieLinkTrainStart | .pcieLinkReset | .warmReset
  | .coldReset | .deviceReady | .flashRelease | .vfEnableClear | .fordPoll | .hifPtmMasterLoRead | .hifLinkErrRead
  | .dbgLogData0Read | .dbgTraceData0Read | .dbgMemDataLoRead | .latenessRecheck | .windowStart | .retrainStart
  | .heartbeatSend | .composeFrame | .entropyTestFail | .debugChallengeLapse | .fwVerifyDone | .flashSectorProgrammed => true
  | .railJudgedGood ch _ _ | .railOnTimeout ch | .railPgFault ch _ | .recurrenceWindowEnd ch
  | .railOffTimeout ch | .pmbusVoutPoll ch _ _ | .pmbusSclTimeout ch => ch < 16
  | .railFallen ch reading => ch < 16 && reading < 65536
  | .railWindowFault ch reading _ => (ch < 16 || ch == 254) && reading < 65536
  | .railGlitch ch reading _ => ch < 16 && reading < 65536
  | .calibrationDone _ beRate => 0 < beRate
  | .vfFlr n | .lockInterface n | .stopInterface n | .startInterface n => 1 ≤ n && n ≤ 32
  | .vfEnableSet numVfs _ => numVfs ≤ 32
  | .bar2Resize m shift => m ≤ 32 && 30 ≤ shift && shift ≤ 38
  | .msixUnmask m vector _ => m ≤ 32 && vector < (if m = 0 then 64 else 32)
  | .ideKmKeyProg f _ | .ideKmKeySetGo f | .ideKmKeySetStop f => f ≤ 32
  | .fordDbWrite m w _ _ | .fordRescan m w => m ≤ 32 && w < 64
  | .fordFlagWrite m w byte _ _ => m ≤ 32 && w < 64 && byte % 4 == 0 && byte < 16384
  | .registerWrite m _ _ _ _ => m ≤ 32
  | .matmul s d | .conv s d | .tconv s d | .attn s d | .norm s d | .sfu s d | .softmax s d | .quant s d | .copy s d
  | .coll s d | .syncWait s d | .syncSignal s d | .kvAppend s d | .compose s d | .descriptorEnd s d
  | .preemptAtTileBoundary s d => s < 16384 && d < 4096
  | .waitTimeout s | .remoteWaitResend s | .streamTeardown s => s < 16384
  | .partDrainDone p | .partReady p => p < 32
  | .tagForceRetire kind _ _ => kind < 4
  | .partHbmScrubDone p b => p < 32 && b < 8
  | .frameScrubDone b frame => b < 8 && frame < 8781824
  | .ledgerRecovered kind index dir => kind < 4 && index < 24 && dir < 2
  | .basinArbitrate b _ _ | .patrolScrub b _ | .hbmEccReportRead b _ | .basinThermalRead b _ | .basinThermalRelease b
  | .basinDrainDone b | .basinTrainDone b _ _ _ _ | .basinRetrainTrigger b _ | .hbmRepairDone b _ _ => b < 8
  | .passSignalDetect p | .passTrainStateDone p _ | .passTrainTimeout p | .passDriftRetrain p _ | .portIdleTimeout p
  | .flitReceive p _ | .flitSend p | .rdReq p _ | .wrReq p _ | .syncOp p _ | .rdRsp p _ | .wrAck p _ | .syncRsp p _
  | .refuse p _ | .hold p _ | .release p _ | .collData p _ | .collReady p _ | .collSlow p _ | .collWithdrawn p _
  | .collAbort p _ | .heartbeat p _ | .join p _ | .leave p _ | .loss p _ | .ownerNotice p _ => p < 24
  | .holdTimer src tag | .dedupEntryExpiry src tag => src < 4096 && tag < 65536
  | .requestTimerExpiry dst tag | .dedupFullResend dst tag => dst < 4096 && tag < 65536
  | .collTimeout group => group < 256
  | .noRouteTimeout chip => chip < 4096
  | .frameLatch ctx | .layerGraceExpiry ctx => ctx < 2048
  | .mediaRowStart core | .mediaRowEnd core _ | .mediaCoreCheckError core _ => core < 16
  | .sramEccError typ _ _ => typ ≤ 12
  | .engineCheckError halfPlain unit _ => halfPlain < 32 && unit < 7
  | .pcieLinkTrained width rate flit => width ≤ 16 && 1 ≤ rate && rate ≤ 4 && (rate != 4 || flit)

end Sys2Proof
end

