-- ==== Sys2Proof/Tests/Slice0.lean ====
section
/-! SUPPORT. Tests of single steps, ill-formed commands that WellFormed refuses, and for every statement with hypotheses a state and operands that meet all of them together. -/
namespace Sys2Proof.Tests
open Sys2Proof Sys2Proof.Machine
-- One theorem at a time: side by side, the kernel evaluations below would each hold a thread and its stack.
set_option Elab.async false

/-! ### States -/

/-- A chip in ACTIVE at 10 s of device time, boot complete: rails good, Plains running, Basins ready, ports UP, every function
and mailbox enabled, one partition on half-plains 0 and 1. -/
def up : State := { State.reset with
  now := 10000000000
  rails := (List.range 16).map fun ch => { cfg := RailCfg.default ch, target := (RailCfg.default ch).setpoint, enabled := decide (ch < 14),
                                           state := if ch < 14 then .good else .off }
  sup := { seq := .steady, powerGood := true }
  power := { perstLow := none }
  boot := { stage := .ready }
  plains := List.replicate 16 { state := .run, locked := true }
  fns := (List.range 33).map fun f => { Fn.atReset f with enabled := true }
  hif := { up := true }
  mbx := List.replicate 33 { enable := true, ready := true, sqSize := 4, cqSize := 4, eqSize := 4 }
  cp := { up := true }
  parts := { exist := true, cfg := { hpMask := 3, quota := [100, 100, 100, 100] } } :: List.replicate 31 {}
  sec := { selfTest := true }
  basins := List.replicate 8 { state := .ready }
  ports := List.replicate 24 { state := .up } }

/-- A command with REQ_ID 7. -/
def cmd (target : Nat := 0) (params : Nat := 0) : Cmd := { reqId := 7, target := BitVec.ofNat 32 target, params := BitVec.ofNat 320 params }
/-- Its journal entry. -/
def tk (op : Nat) (c : Cmd) (slot : Option (Nat × Nat) := none) : Taken := { entry := entryOf c op, slot := slot }
/-- A state in whose journal it stands. -/
def took (op m : Nat) (c : Cmd) (s : State) (slot : Option (Nat × Nat) := none) : State :=
  s.updMb m fun b => { b with taken := [tk op c slot] }
/-- A state whose rail `ch` has been changed. -/
def railed (ch : Nat) (f : Rail → Rail) : State := up.updRail ch f

/-! ### Witnesses: the machine as a whole -/

theorem test_witness_EmptyQueueCountsDeviceTime : up.pending = [] ∧ up.time.slew = 0 ∧ (∀ x ∈ up.streams, x.items = []) := by decide +kernel
theorem test_witness_NoCommandStopsTheBlock : { up with pending := [Instr.refQualified] }.pending = Instr.refQualified :: [] := by decide +kernel
theorem test_witness_MemoryStaysCanonical : up.mem.wf = true ∧ ∃ t, step up = .next t := ⟨by decide +kernel, _, rfl⟩
theorem test_witness_UnpoweredDomainsDoNothing :
    aonRow .fordPoll = false ∧ { up with power := { chip := .off } }.power.chip ≠ .active ∧
    { up with power := { chip := .off } }.power.chip ≠ .qsc ∧ { up with power := { chip := .off } }.power.chip ≠ .stby := by decide +kernel
/-- A chip that rests in FAULT_OFF. -/
def down : State := { State.reset with rails := List.replicate 16 {}, sup := { seq := .steady }, power := { chip := .faultOff } }
theorem test_witness_FaultOffLeftOnlyByCold : coldRow .fordPoll = false ∧ FaultedOff down ∧ down.sup.powerGood = false ∧
    ∃ t, exec .fordPoll down = .next t := ⟨rfl, ⟨rfl, rfl, rfl, by decide +kernel⟩, rfl, _, rfl⟩
theorem test_witness_CommittedStoresReadBack : cellsWf [(3, 1#8), (9, 2#8)] = true := by decide +kernel
theorem test_witness_StoreThenLoad : (4 : Nat) ≠ 3 ∧ (3 ≤ 3 ∧ 3 < 4) ∧ (2 < 3 ∨ 4 ≤ 2) ∧ (4 < 3 ∨ 4 ≤ 4) := by decide

/-! ### Witnesses: mailboxes, the control processor and the host interface -/

theorem test_witness_MailboxRegisterWrites :
    (up.core = true ∧ up.mbxOpen 0 = true ∧ up.offStream 0 false = false) ∧ bits (15 : BitVec 32).toNat 0 12 < ringSize (up.mb 0).sqSize ∧
    ringSize (up.mb 0).sqSize ≤ bits (16 : BitVec 32).toNat 0 12 ∧ bits (15 : BitVec 32).toNat 0 12 < ringSize (up.mb 0).cqSize ∧
    bits (15 : BitVec 32).toNat 0 12 < ringSize (up.mb 0).eqSize ∧
    (let s := up.updMb 0 fun b => { b with enable := false }
     s.mbxOpen 0 = true ∧ (s.mb 0).enable = false ∧ 4 ≤ (s.mb 0).sqSize ∧ (s.mb 0).sqSize ≤ (s.mb 0).cqSize ∧ (s.mb 0).cqSize ≤ 12 ∧
      4 ≤ (s.mb 0).eqSize ∧ (s.mb 0).eqSize ≤ 12) ∧
    (let s := up.updMb 0 fun b => { b with enable := false, sqSize := 5 }
     s.mbxOpen 0 = true ∧ (s.mb 0).enable = false ∧ (s.mb 0).cqSize < (s.mb 0).sqSize) ∧
    (let s := { up with power := { perstLow := none, chip := .stby } }
     s.core = false ∧ s.keeper = true ∧ s.suspended = true ∧ s.offStream 1 false = false ∧ (s.fn 1).enabled = true) ∧
    (let s := up.updFn 1 fun x => { x with tdi := 1 }
     s.core = true ∧ s.offStream 1 false = true ∧ s.offStream 1 true = false) := by decide +kernel
/-- Mailbox 1 with an entry posted. -/
def posted : State := up.updMb 1 fun b => { b with sqTail := 1 }
theorem test_witness_EntryTaken :
    (posted.core = true ∧ (posted.mb 1).posted = true ∧ posted.cpUp = true) ∧
    (let e := entryOf (cmd) 0x0103
     posted.admits 1 e = true ∧ posted.cmdPoison 1 e = false ∧ (posted.mb 1).idCheck e = .new ∧ precheck posted 1 e = none) ∧
    (let e := entryOf (cmd) 0x0103
     let s := posted.updMb 1 fun b => { b with window := [{ entry := e, done := { reqId := 7, status := 0 } }] }
     s.admits 1 e = true ∧ s.cmdPoison 1 e = false ∧ (s.mb 1).idCheck e = .retryDone { reqId := 7, status := 0 } ∧
     s.admits 1 (entryOf cmd 0x0102) = true ∧ (s.mb 1).idCheck (entryOf cmd 0x0102) = .conflict) ∧
    (let s := took 0x0104 1 cmd up
     (s.mb 1).turn = some (tk 0x0104 cmd) ∧ s.cpReads = true ∧ (tk 0x0104 cmd).done = none ∧
     precheck s 1 (tk 0x0104 cmd).entry = some (ST.mbxDenied, 0)) ∧
    (let s := took 0x0103 1 cmd up
     (s.mb 1).turn = some (tk 0x0103 cmd) ∧ precheck s 1 (tk 0x0103 cmd).entry = none) ∧ (up.mb 1).turn = none := by decide +kernel
theorem test_witness_HeldIdAndItsRetries :
    1 < up.mbx.length ∧ (up.mb 1).idCheck (entryOf cmd 0x0103) = .new ∧ eId (entryOf cmd 0x0103) = eId (entryOf cmd 0x0102) ∧
    sameEntry (entryOf cmd 0x0103) (entryOf cmd 0x0103) = true ∧ sameEntry (entryOf cmd 0x0103) (entryOf cmd 0x0102) = false := by decide +kernel
theorem test_witness_CompletedCommandIsRemembered :
    (took 0x0103 1 cmd up).taken ⟨1, 7⟩ = some (tk 0x0103 cmd) ∧ (tk 0x0103 cmd).deferred = false ∧ recorded ST.ok = true ∧ recorded ST.busy = false ∧ recorded ST.idConflict = false ∧
    ((took 0x0103 1 cmd up).mb 1).window.find? (fun w => eId w.entry == (7 : BitVec 32)) = none := by decide +kernel
theorem test_witness_ProcessorAndCoalescingRows :
    (let s := up.updFn 0 fun x => { x with coalCq := { count := 9, time := 10, since := 1, first := 9999990000 },
                                           coalEq := { count := 9, time := 10, since := 1, first := 9999990000 } }
     s.core = true ∧ (s.fn 0).coalCq.due s.now = true ∧ (s.fn 0).coalEq.due s.now = true) ∧
    (up.core = true ∧ up.cpUp = true ∧ up.halts ≠ 15 ∧ up.halts = 0 ∧ up.cp.lastBeat + 1000000 ≤ up.now ∧ up.cp.lastBeat + 500000000 ≤ up.now) ∧
    (let s := { up with cp := { up := false } }
     s.core = true ∧ s.bar0Valid = true ∧ s.cp.up = false ∧ s.cp.failed = false) := by decide +kernel
theorem test_witness_HostLinkRows :
    (let s := { up with hif := {} }
     s.core = true ∧ s.power.perstLow = none ∧ s.hif.up = false ∧ s.power.perstRise + 20000000 ≤ s.now) ∧
    (up.core = true ∧ (up.hif.training = true ∨ up.hif.up = true) ∧ 16 ∈ [1, 2, 4, 8, 16] ∧ (4 = 4 → true = true) ∧ up.hif.numVfs = 0 ∧
      up.hif.up = true ∧ up.offStream 1 false = false ∧ (up.updFn 1 fun x => { x with tdi := 1 }).offStream 1 false = true) := by decide +kernel
theorem test_witness_TrustedInterfaceRows :
    (up.core = true ∧ up.solram = true ∧ up.keeper = true ∧ up.hif.up = true ∧ up.bar0Valid = true ∧ (up.fn 1).enabled = true ∧ (up.fn 1).tdi = 0 ∧
      (up.fn 2).enabled = true ∧ (up.part 0).exist = true ∧ (up.part 1).exist = false) ∧
    (let s := (up.updFn 1 fun x => { x with tdi := 1, ideUp := true }).updPart 0 fun p => { p with cfg := { p.cfg with confidential := true } }
     s.core = true ∧ s.solram = true ∧ (s.fn 1).enabled = true ∧ (s.fn 1).tdi ≠ 0 ∧ (s.fn 1).tdi = 1 ∧ (s.part 0).exist = true) ∧
    (let s := (up.updFn 1 fun x => { x with ideUp := true }).updPart 0 fun p => { p with cfg := { p.cfg with confidential := true } }
     s.solram = true ∧ (s.fn 1).tdi = 0 ∧ (s.part 0).exist = true ∧ (s.part 0).cfg.confidential = true ∧ (s.fn 1).ideUp = true) := by decide +kernel

/-! ### WellFormed refuses what names no unit -/

/-- One ill-formed command for each check. -/
def illFormed1 : List Instr :=
  [.devInfo 33 cmd, .mbxEnable 33 false, .keeperBar0Access 33 0 none, .fordDataWrite 33 0 [] false false, .evtCoalTimer 33 0, .evtCoalTimer 0 2,
   .cpFreqTargetSet 16 0, .cpFreqTargetSet 0 105, .avsSettled 4, .plainFreqStep 16, .plainThermalTrip 16 0,
   .railJudgedGood 16 0 [], .railWindowFault 253 0 1, .railWindowFault 5 65536 1, .railGlitch 16 0 1, .railGlitch 5 65536 1, .railFallen 16 0,
   .railFallen 5 65536,
   .calibrationDone [] 0, .vfFlr 0, .vfFlr 33, .vfEnableSet 33 true, .bar2Resize 33 30, .bar2Resize 0 29, .bar2Resize 0 39,
   .msixUnmask 33 0 false, .msixUnmask 0 64 false, .msixUnmask 1 32 false, .ideKmKeyProg 33 0]
def illFormed2 : List Instr :=
  [.fordDbWrite 33 0 0 false, .fordDbWrite 0 64 0 false, .fordFlagWrite 33 0 0 0 false, .fordFlagWrite 0 64 0 0 false, .fordFlagWrite 0 0 3 0 false,
   .fordFlagWrite 0 0 16384 0 false, .registerWrite 33 0 4 0 false, .matmul 16384 0, .matmul 0 4096, .waitTimeout 16384, .partReady 32,
   .tagForceRetire 4 0 0, .partHbmScrubDone 32 0, .partHbmScrubDone 0 8, .frameScrubDone 8 0, .frameScrubDone 0 8781824]
def illFormed3 : List Instr :=
  [.ledgerRecovered 4 0 0, .ledgerRecovered 0 24 0, .ledgerRecovered 0 0 2, .patrolScrub 8 .clean, .portIdleTimeout 24,
   .holdTimer 4096 0, .holdTimer 0 65536, .requestTimerExpiry 4096 0, .requestTimerExpiry 0 65536, .collTimeout 256, .noRouteTimeout 4096,
   .frameLatch 2048, .mediaRowStart 16, .sramEccError 13 0 .clean, .engineCheckError 32 0 false, .engineCheckError 0 7 false,
   .pcieLinkTrained 17 4 true, .pcieLinkTrained 16 0 true, .pcieLinkTrained 16 5 true]
theorem test_ill_formed_refused :
    (illFormed1.all (fun i => !i.wellFormed) && illFormed2.all (fun i => !i.wellFormed) &&
      illFormed3.all (fun i => !i.wellFormed)) = true := by decide +kernel
theorem test_well_formed_accepted :
    ([Instr.devInfo 32 cmd, .evtCoalTimer 32 1, .cpFreqTargetSet 15 104, .railWindowFault 254 65535 1, .vfFlr 32, .bar2Resize 32 38, .msixUnmask 32 31 false,
      .fordFlagWrite 32 63 16380 0 true, .matmul 16383 4095, .frameScrubDone 7 8781823, .portIdleTimeout 23, .holdTimer 4095 65535,
      .pcieLinkTrained 16 4 true].all (·.wellFormed)) = true := by decide +kernel

/-! ### No word spells a command -/

theorem test_no_word_is_a_command : decodeTableWord 64 0 = none ∧ up.withFetchWord 64 0 = up := ⟨rfl, rfl⟩

/-! ### Witnesses: clocks, rails, power -/

theorem test_witness_FrequencyAndVoltageRows :
    (up.core = true ∧ up.cpUp = true ∧ (up.plain 0).state ≠ .off ∧ 70 ≤ up.prof.freqCap.getD 0 0 ∧ 70 ≤ (up.plain 0).limit ∧
      ¬(up.plain 0).current < 70) ∧
    (let s := (railed 3 fun r => { r with moving := some 300 }).updPlain 0 fun x => { x with current := 60 }
     s.core = true ∧ s.cpUp = true ∧ (s.plain 0).state ≠ .off ∧ 76 ≤ s.prof.freqCap.getD 0 0 ∧ 76 ≤ (s.plain 0).limit ∧ (s.plain 0).current < 76 ∧
      s.serves 0 76 = false) ∧
    (up.power.chip = .active ∧ (up.rail 6).enabled = true ∧ (up.rail 6).cfg.avs = true ∧ 340 < 341) ∧
    (let s := railed 6 fun r => { r with moving := some 300 }
     s.core = true ∧ (s.rail 6).moving.isSome = true ∧ (s.rail 6).movedAt + 1000 ≤ s.now ∧ (s.rail 6).settleFault = false ∧
      (s.rail 6).movedAt + 100000 ≤ s.now) ∧
    (up.aon = true ∧ (up.rail 1).state = .good ∧ (up.rail (3 + quadOf 15)).enabled = true) := by decide +kernel
theorem test_witness_FrequencyAndVoltageRows_floor :
    { up with plains := List.replicate 16 { state := .ret } }.voltageFloor 3 ≤ 340 ∧ 340 ≤ 340 := by decide +kernel
theorem test_witness_ReferenceRows :
    (up.aon = true ∧ (∀ t ∈ up.clk.estAt, t + 10000 ≤ up.now) ∧ up.clk.outside < 9 ∧ 9 ≤ { up.clk with outside := 9 }.outside) ∧
    ((-11 : Int) < -10 ∨ (10 : Int) < -11) ∧ ((-10 : Int) ≤ 10) ∧ 2000 ≤ 2000 ∧ 1999 < 2000 ∧
    (let s := { up with clk := { up.clk with holdover := true, goodSince := some 1000, qualified := true } }
     s.clk.holdover = true ∧ s.clk.lost = false ∧ s.clk.goodSince = some 1000 ∧ 1000 + 1000000 ≤ s.now ∧ s.clk.qualified = true) := by decide +kernel
theorem test_witness_PulsePerSecondRows :
    (let s := { up with time := { up.time with edge := false, mode := 1 } }
     s.aon = true ∧ true ≠ s.time.edge ∧ s.timeRoot = s.chip ∧ s.time.mode ≠ 2 ∧ s.time.mode ≠ 3 ∧ s.time.mode ≠ 0 ∧ s.time.ppsLost = false ∧
      s.time.lastEdge + 1500000000 ≤ (s.now : Int)) ∧
    (let s := { up with time := { up.time with mode := 3, next := 9 }, streams := [{ index := 0, gen := 0, owner := 0 }] }
     s.timeRoot = s.chip ∧ s.time.mode = 3 ∧ s.time.next < s.now ∧ s.streams ≠ [] ∧ { s with streams := [] }.streams = [] ∧ s.time.next < 2 ^ 64) ∧
    { up with time := { up.time with mode := 2 } }.time.mode = 2 ∧
    (let s := { up with time := { up.time with outEn := true } }
     s.aon = true ∧ s.time.outEn = true ∧ s.time.ppsOut = false ∧ s.now % 1000000000 ≤ 10) ∧
    (let s := { up with time := { up.time with ppsOut := true, ppsRise := 10000000000 } }
     s.time.ppsOut = true ∧ (s.now : Int) < s.time.ppsRise + 100000 ∧ s.time.ppsRise + 100000 ≤ ({ s with now := 10000100000 }.now : Int)) := by decide +kernel
/-- A power-up that has come to rail 5, and one that has come to the first rail; a power-down that has come to rail 5. -/
def rising : State := { railed 5 fun r => { r with state := .ramping, enabledAt := 0 } with sup := { seq := .up [5, 6] } }
def rising0 : State := { railed 0 fun r => { r with state := .ramping, enabledAt := 0 } with sup := { seq := .up [0] }, boot := {} }
def sinking : State := { railed 5 fun r => { r with enabled := false } with sup := { seq := .down [5, 4, 0] .faultOff, powerGood := true, recordDue := true } }
theorem test_witness_RailSequenceRows :
    (rising.aon = true ∧ rising.sup.seq = .up (5 :: [6]) ∧ (rising.rail 5).enabled = true ∧ (rising.rail 5).state = .ramping ∧
      (rising.rail 5).enabledAt + 100000 ≤ rising.now ∧ 5 ≠ 0 ∧ (rising.rail 5).enabledAt + (rising.rail 5).cfg.onTimeout * 1000000 ≤ rising.now) ∧
    (rising0.aon = true ∧ rising0.sup.seq = .up (0 :: []) ∧ (rising0.rail 0).enabled = true ∧ (rising0.rail 0).state = .ramping ∧
      (rising0.rail 0).enabledAt + 100000 ≤ rising0.now ∧ rising0.boot.stage = .rails ∧ rising0.sup.powerGood = false) ∧
    (sinking.aon = true ∧ sinking.falling 5 = true ∧ (sinking.rail 5).cfg.window = true ∧ 140 * 2 < min (sinking.rail 5).cfg.setpoint 320 ∧
      min (sinking.rail 5).cfg.setpoint 320 ≤ 160 * 2 ∧ sinking.sup.seq = .down [5, 4, 0] .faultOff ∧
      (sinking.rail 5).enabledAt + 50000000 ≤ sinking.now ∧ sinking.sup.recordDue = true) ∧
    (let s := sinking.updRail 5 fun r => { r with cfg := { r.cfg with window := false } }
     s.falling 5 = true ∧ (s.rail 5).cfg.window = false ∧ (s.rail 5).cfg.pmbAddr = 0 ∧ (s.rail 5).enabledAt + (s.rail 5).cfg.offWait * 1000000 ≤ s.now) ∧
    (let s := sinking.updRail 5 fun r => { r with cfg := { r.cfg with window := false, pmbAddr := 1 } }
     s.falling 5 = true ∧ (s.rail 5).cfg.window = false ∧ (s.rail 5).cfg.pmbAddr ≠ 0 ∧ (∀ t ∈ (s.rail 5).voutAt, t + 1000000 ≤ s.now) ∧
      187 * 8 < min ((s.rail 5).cfg.setpoint * 5) 1600 ∧ min ((s.rail 5).cfg.setpoint * 5) 1600 ≤ 200 * 8) := by decide +kernel
theorem test_witness_RailFaultRows :
    (up.aon = true ∧ 607 < 608 ∧ 672 < 673 ∧ 100 ≤ 100 ∧ 99 < 100 ∧ 608 ≤ 672) ∧
    (let r := (up.rail 5).low - 1
     5 ≠ 254 ∧ up.judged 5 = true ∧ (up.rail 5).cfg.window = true ∧ outside (up.rail 5).low (up.rail 5).high r = some false ∧
      ((up.rail 5).cfg.filter + 1) * 100 ≤ up.judgedNs 5 (200 * 10) ∧ 10 ≤ up.judgedNs 5 (1 * 10) ∧
      up.judgedNs 5 (1 * 10) < ((up.rail 5).cfg.filter + 1) * 100 ∧ (up.rail 5).low ≤ (up.rail 5).high) ∧
    (up.judged 0 = true ∧ (up.rail 0).cfg.window = false ∧ ((up.rail 0).cfg.filter + 1) * 100 ≤ up.judgedNs 0 25500 ∧
      up.judgedNs 0 10 < ((up.rail 0).cfg.filter + 1) * 100) ∧
    (let s := railed 5 fun r => { r with windowFrom := some 0, runFaults := 1, level := 1 }
     (s.rail 5).windowFrom = some 0 ∧ 0 + 100000000 ≤ s.now ∧ (s.rail 5).runFaults ≤ 1 ∧ (s.rail 5).level ≤ 1) ∧
    (let s := { up with sup := { up.sup with level2At := some 0 } }
     s.sup.level2At = some 0 ∧ 0 + 10000000 ≤ s.now) ∧
    (let s := railed 5 fun r => { r with cfg := { r.cfg with pmbAddr := 1 } }
     let w : RegStatus := { channel := 5, acked := true, warn := false, high := false, low := false, current := false, temp := false }
     s.judged 0 = true ∧ (∀ x ∈ [w], x.channel < 16 ∧ (s.rail x.channel).cfg.pmbAddr ≠ 0) ∧ (∀ t ∈ (s.rail 5).polledAt, t + 10000000 ≤ s.now)) := by decide +kernel
theorem test_witness_PlainStateRows :
    (let s := { up with parts := [] }
     s.core = true ∧ s.cpUp = true ∧ 15 < 16 ∧ (s.plain 15).state = .run ∧ s.plainBusy 15 = false ∧ (s.plain 15).state ≠ .off ∧ s.plainOwned 15 = false) ∧
    (let s := up.updPlain 0 fun x => { x with state := .idle }
     s.core = true ∧ (s.plain 0).state = .idle ∧ s.prof.retEn = true ∧ (s.plain 0).since + s.prof.retDelay * 10000 ≤ s.now ∧ s.plainBusy 0 = false) ∧
    (let s := up.updPlain 0 fun x => { x with state := .ret, exiting := true }
     s.core = true ∧ (s.plain 0).state = .ret ∧ (s.plain 0).exiting = true) ∧
    (let s := up.updPlain 0 fun x => { x with state := .off }
     s.core = true ∧ (s.plain 0).state = .off ∧ s.plainOwned 0 = true) := by decide +kernel
theorem test_witness_PlainThermalRows :
    (up.aon = true ∧ up.core = true ∧ 15 < 16 ∧ up.judged (3 + quadOf 15) = true ∧ [(396 : Int), 459].max? = some 459 ∧ [(396 : Int), 460].max? = some 460 ∧
      (∀ u ∈ (up.plain 15).sampledAt, u + 10000 ≤ up.now)) ∧
    (let s := up.updPlain 0 fun x => { x with hottest := 400 }
     s.core = true ∧ 400 ≤ (s.plain 0).hottest ∧ (s.plain 0).limitAt + 100000 ≤ s.now) ∧
    (let s := up.updPlain 0 fun x => { x with hottest := 387, limit := 103 }
     (s.plain 0).hottest < 388 ∧ (s.plain 0).limit < 104 ∧ (s.plain 0).limitAt + 1000000 ≤ s.now) ∧
    (let s := up.updPlain 0 fun x => { x with duty := 1, below := some 0 }
     (s.plain 0).duty = 1 ∧ (s.plain 0).below = some 0 ∧ 0 + 1000000 ≤ s.now) ∧
    (let s := up.updPlain 0 fun x => { x with duty := 4, below := some 0 }
     (s.plain 0).duty < 8 ∧ (s.plain 0).duty ≠ 1 ∧ (s.plain 0).below = some 0 ∧ 0 + 1000000 ≤ s.now) := by decide +kernel
/-- A chip in STBY. -/
def standby : State := { railed 1 fun r => { r with enabled := false, state := .off } with power := { perstLow := none, chip := .stby, waking := true } }
theorem test_witness_ChipPowerRows :
    ({ sinking with sup := { sinking.sup with seq := .down [] .faultOff } }.sup.seq = .down [] .faultOff) ∧
    (let s := { up with power := { up.power with entry := some (.qsc, some ⟨0, 7⟩) } }
     s.aon = true ∧ s.sup.seq = .steady ∧ s.power.entry = some (.qsc, some ⟨0, 7⟩)) ∧
    (up.keeper = true ∧ bit (1 : BitVec 32).toNat 0 = true ∧ up.power.chip ≠ .off ∧ up.warmable = true ∧ up.linkLost.warmable = true) ∧
    (let s := { up with power := { chip := .off, perstLow := some 0 } }
     s.aon = true ∧ s.power.chip = .off ∧ s.sup.seq = .steady ∧ s.power.perstLow = some 0 ∧ 0 + 100000 ≤ s.now) ∧
    (let s := { up with power := { up.power with chip := .qsc, waking := true } }
     s.keeper = true ∧ s.power.waking = true ∧ s.power.chip = .qsc ∧ s.power.rising = false) ∧
    (let s := { up with power := { up.power with chip := .qsc, waking := true, rising := true } }
     s.power.rising = true ∧ (∀ r ∈ s.rails, r.cfg.avs = true → r.enabled = true → r.moving = none) ∧
      ∃ r ∈ (s.updRail 3 fun r => { r with moving := some 300 }).rails, r.cfg.avs = true ∧ r.enabled = true ∧ r.moving ≠ none) ∧
    (standby.keeper = true ∧ standby.suspended = true ∧ standby.power.waking = true ∧ standby.power.chip = .stby ∧ standby.sup.seq = .steady ∧
      (standby.rail 1).enabled = false ∧ (standby.fn 0).enabled = true ∧ (doorbellAt 0 0x1001C).isSome = true ∧ (doorbellAt 0 0x60008).isSome = false) ∧
    { up with sup := { up.sup with aonUp := false } }.aon = false := by decide +kernel
theorem test_witness_StandbySaveAndRestore :
    (let s := { up with power := { up.power with entry := some (.stby, some ⟨0, 7⟩) } }
     s.core = true ∧ s.power.entry = some (.stby, some ⟨0, 7⟩)) ∧
    (let s := { up with power := { perstLow := none, chip := .stby, waking := true } }
     s.keeper = true ∧ s.power.chip = .stby ∧ s.power.waking = true ∧ s.sup.seq = .steady ∧ s.judged 1 = true ∧ (∀ x ∈ s.plains, x.locked = true) ∧
      s.power.image = s.sec.cpHash ∧ { s.power with image := [1] }.image ≠ s.sec.cpHash) := by decide +kernel

/-! ### Witnesses: Ford windows, registers, debug and firmware -/

/-- Window 1 of the partition's function mapped over the start of its memory: two slots of 4 KiB. -/
def mapped : State := { up.updWindow 1 1 fun _ => { mapped := true, count := 2, slots := [{ owner := 1 }, { owner := 2 }], rescans := [(0, 1)] } with
  streams := [{ index := 0, gen := 0, owner := 0 }] }
theorem test_witness_FordRows :
    (mapped.keeper = true ∧ mapped.core = true ∧ mapped.offStream 1 false = false ∧ mapped.fnOpen 1 = true ∧ 63 < 64 ∧ (mapped.window 1 1).mapped = true ∧
      bits (1 : BitVec 32).toNat 0 12 < (mapped.window 1 1).count ∧ (mapped.window 1 1).count ≤ bits (2 : BitVec 32).toNat 0 12 ∧
      (mapped.window 1 63).mapped = false ∧ (mapped.window 1 1).rescans = (0, 1) :: [] ∧ 0 + 20000 ≤ mapped.now) ∧
    (standby.keeper = true ∧ standby.core = false ∧ standby.suspended = true ∧ standby.offStream 1 false = false ∧ (standby.fn 1).enabled = true) ∧
    (mapped.power.chip = .active ∧ mapped.now % 20000 ≤ 1 ∧ mapped.hif.polled ≠ mapped.now / 20000) ∧
    (4 < (mapped.window 1 1).flagBytes ∧ 4 % 4 = 0 ∧ (mapped.fn 32).enabled = true ∧ 32 < 33 ∧ mapped.windowAt 1 0x3FFFFFFF = none) ∧
    ((up.updFn 1 fun x => { x with tdi := 2 }).fn 1).tdi = 2 := by decide +kernel
theorem test_witness_RegisterRows :
    (up.core = true ∧ up.bar0On 0 = true ∧ up.bar0On 32 = true ∧ up.offStream 0 false = false ∧ up.offStream 32 false = false) ∧
    (0x50023 % 4 ≠ 0 ∧ 0x0000C % 8 ≠ 0 ∧ 0x00010 % 8 = 0 ∧ roPair 0 (blockOf 0 0x00010) = true) ∧
    (latched 0 (blockOf 0 0x50024) = true ∧ 0x50024 % 4 = 0 ∧ latched 0 (blockOf 0 0x0000C) = true) ∧
    (latched 0 (blockOf 0 0x00008) = false ∧ roPair 0 (blockOf 0 0x00008) = true ∧ blockOf 0 0x00008 ≠ (9, 0x048)) ∧
    (latched 0 (blockOf 0 0x90048) = false ∧ roPair 0 (blockOf 0 0x90048) = true ∧ blockOf 0 0x90048 = (9, 0x048) ∧ 0x90048 % 8 = 0) ∧
    (latched 0 (blockOf 0 0x00000) = false ∧ roPair 0 (blockOf 0 0x00000) = false) ∧
    (let s := up.updFn 1 fun x => { x with tdi := 1 }
     s.core = true ∧ (s.fn 1).tdi = 1) := by decide +kernel
theorem test_witness_DebugRows :
    (up.core = true ∧ up.aon = true ∧ up.bar0On 0 = true ∧ up.sec.level = 0) ∧
    (let s := { up with sec := { up.sec with level := 2, challenge := some ([], 0) }, dbg := { up.dbg with memAddr := 8 } }
     s.core = true ∧ s.bar0On 0 = true ∧ s.sec.level ≠ 0 ∧ s.sec.level = 2 ∧ s.sec.challenge = some ([], 0) ∧ 0 + 60000000000 ≤ { s with now := 60000000000 }.now) ∧
    (up.jtagOpen .idcode = true ∧ up.jtagOpen .scan = false ∧ up.solram = true) ∧
    { up with sup := { up.sup with last := some { code := EV.logRailFault, cls := 1, stamp := 0 } } }.sup.last =
      some { code := EV.logRailFault, cls := 1, stamp := 0 } := by decide +kernel
theorem test_witness_DebugRows_word :
    (match { up with dbg := { up.dbg with memAddr := 8 } }.dbgWord with
      | .at' a => a == 8
      | _ => false) = true ∧
    (match { up with dbg := { up.dbg with memAddr := 0x6000000008 }, plains := up.plains.set 0 { state := .ret } }.dbgWord with
      | .wait p => p == 0
      | _ => false) = true := by decide +kernel
theorem test_witness_BootAndFirmwareRows :
    (let s := { up with boot := { stage := .secureBoot } }
     s.core = true ∧ s.boot.stage = .secureBoot ∧ s.fw.unbootable = none ∧ s.sec.error = false ∧ s.boot.kind = 0 ∧ 2 ^ 26 - 1 < 2 ^ 26) ∧
    (let s := { up with boot := { stage := .test } }
     s.core = true ∧ s.boot.stage = .test ∧ (∀ x ∈ s.plains, x.locked = true) ∧
      ∃ x ∈ (s.updPlain 15 fun x => { x with locked := false }).plains, x.locked = false) ∧
    (let s := { up with boot := { stage := .train } }
     s.boot.stage = .train ∧ s.basinsDone = true ∧ (s.updBasin 7 fun x => { x with state := .train }).basinsDone = false ∧ up.boot.stage ≠ .train) ∧
    (let s := { up with boot := { stage := .calibrate } }
     s.core = true ∧ s.boot.stage = .calibrate ∧ s.boot.calibrated = false) ∧
    (let s := { up with boot := { stage := .calibrate, calibrated := true } }
     s.boot.stage = .calibrate ∧ s.boot.calibrated = true ∧ s.boot.fatal = false ∧ s.sec.lifecycle ≠ 4 ∧ s.fw.fallback = none) ∧
    (let s := { up with boot := { stage := .calibrate, calibrated := true, fatal := true } }
     s.core = true ∧ s.boot.stage = .calibrate ∧ s.boot.fatal = true ∧ s.fw.fallback = none) ∧
    (let s := { up with fw := { up.fw with unbootable := some 0, verify := some ⟨0, 7⟩ }, boot := { up.boot with work := [.confirm ⟨0, 7⟩ 0] } }
     s.fw.unbootable = some 0 ∧ 0 + 1000000000 ≤ s.now ∧ s.boot.work = .confirm ⟨0, 7⟩ 0 :: [] ∧ s.fw.verify = some ⟨0, 7⟩ ∧ s.sec.error = false ∧
      s.cpUp = true ∧ { s with cp := { up := false } }.cpUp = false) := by decide +kernel

/-! ### Witnesses: operations and the life of a job -/

/-- Stream 0 of the partition, with one job whose descriptor of operation `op` runs on half-plain 0. -/
def working (op : Nat) (desc : Block := 0) (tens : List (Nat × Block) := []) : State := { up with
  streams := [{ index := 0, gen := 0, owner := 0, qdepth := 4, kv := some { pool := 0, maps := [1], counts := [0] }, items := [.job
    { addr := storeBase, count := 1, deadline := 0, stamp := 0, number := 1, req := ⟨1, 9⟩, waitEnd := false, descs := [{ op := op }], started := some 1 }] }]
  kv := { exist := true, pages := 64, backing := storeBase + 0x10000 } :: List.replicate 7 {}
  sched := { runs := [{ s := 0, d := 0, part := 0, op := op, hps := [0], since := 1, desc := desc, tens := tens }] } }
def goes : Reach → Bool
  | .go => true
  | _ => false
def reaches (op : Nat) (f : State → Op → List (Nat × Nat) × List (Nat × Nat)) : Bool :=
  ((working op).op? 0 0 op).any fun o => goes ((working op).reach o (f (working op) o).1 (f (working op) o).2)
theorem test_witness_OperationRows :
    (working oMatmul).core = true ∧ reaches oMatmul matmulRegions = true ∧ reaches oConv convRegions = true ∧ reaches oTconv convRegions = true ∧
    reaches oSfu (regionsOf [16, 24]) = true ∧ reaches oSoftmax (regionsOf [16]) = true ∧ reaches oNorm (regionsOf [16, 24, 32]) = true ∧
    reaches oQuant (regionsOf [16]) = true ∧ reaches oCopy (regionsOf [16]) = true ∧ reaches oCompose (fun _ _ => ([], [])) = true ∧
    reaches oColl (fun s o => ((s.opTensor o 16).area, (s.opTensor o 8).area)) = true ∧ reaches oAttn attnRegions = true ∧
    (working oAttn).kvWaits 0 0 = none ∧ (((working oAttn).op? 0 0 oAttn).any fun o => dField o.b 24 == 0 && ((working oAttn).kvOf o.x.index).any fun m => !((working oAttn).pool m.pool).lost) = true := by
  decide +kernel
theorem test_witness_OperationRows_append :
    (((working oKvAppend).op? 0 0 oKvAppend).any fun o =>
      (working oKvAppend).appendBlocked o (o.b.nat 32 0 16) ((working oKvAppend).appendAt o) (((working oKvAppend).opTensor o 16).dim 2) == none) = true ∧
    reaches oKvAppend (fun s o => (s.fieldAreas o [16, 24], [])) = true ∧
    (let s := working oAttn (BitVec.ofNat 512 ((storeBase + 64) * 2 ^ 192))
     s.kvWaits 0 0 == none && (s.op? 0 0 oAttn).any fun o => dField o.b 24 != 0 &&
      s.appendBlocked o (o.b.nat 40 0 16) (o.b.nat 44 0 32) ((s.opTensor o 16).dim 2) == none &&
      goes (s.reach o (attnRegions s o).1 (attnRegions s o).2)) = true := by
  decide +kernel
/-- A MATMUL whose DST is a tensor of 64 bytes at `base`. -/
def storing (base : Nat) : State := { (working oMatmul (BitVec.ofNat 512 ((storeBase + 64) * 2 ^ 64))
    [(storeBase + 64, BitVec.ofNat 512 (base + 0x10 * 2 ^ 48 + 0x20 * 2 ^ 128 + 64 * 2 ^ 160))]).updPlain 1 fun x => { x with state := .ret } with
  parts := { exist := true, cfg := { hpMask := 15 } } :: List.replicate 31 {} }
def stops (s : State) : Option (Option Nat) :=
  (s.op? 0 0 oMatmul).bind fun o => match s.reach o (matmulRegions s o).1 (matmulRegions s o).2 with
    | .fault c => some (some c)
    | .hold _ => some none
    | .go => none
theorem test_witness_OperationRows_waits : stops (storing 0) = some (some 0x41) ∧
    stops (storing (storeBase + 0x2000000)) = some none := by
  decide +kernel

/-- Stream 0 with one job of a single descriptor of 64 zero bytes. -/
def jobbed (j : Job) (runs : List Run := []) : State := { up with
  streams := [{ index := 0, gen := 0, owner := 0, qdepth := 4, items := [.job j] }], sched := { runs := runs } }
def job0 : Job := { addr := storeBase, count := 1, deadline := 0, stamp := 0, number := 1, req := ⟨1, 9⟩, waitEnd := false,
                    crcs := [[crc32c (List.replicate 64 0)]], descs := [{ op := oSignal }] }
def run0 : Run := { s := 0, d := 0, part := 0, op := oMatmul, hps := [0], since := 1, done := true, marked := true }
theorem test_witness_JobRows :
    (let s := jobbed { job0 with leading := 1 }
     s.core = true ∧ (s.live? 0).isSome = true ∧ ((s.live? 0).all fun q => q.2.waits == 0 && 0 < q.2.leading && q.2.waitFrom == none &&
        !s.missed q.1 q.2 && s.retOf q.1.owner (q.2.at 0) == [] && s.descCheck q.1 q.2 0 == none) = true) ∧
    (let s := jobbed { job0 with leading := 1, crcs := [[0]] }
     ((s.live? 0).any fun q => q.2.waits == 0 && !s.missed q.1 q.2 && s.retOf q.1.owner (q.2.at 0) == [] && s.descCheck q.1 q.2 0 == some 0x45) = true) ∧
    (let s := (jobbed { job0 with leading := 1 }).updPlain 0 fun x => { x with state := .ret }
     ((s.live? 0).any fun q => !s.missed q.1 q.2 && s.retOf q.1.owner (q.2.at 0) != []) = true) ∧
    (let s := (jobbed { job0 with leading := 1, deadline := 1, waitFrom := some 0, waitUs := 1 }).updStream 0 fun x => { x with cls := 0 }
     ((s.live? 0).any fun q => s.missed q.1 q.2 && q.2.waitFrom == some 0) = true ∧
     (((jobbed { job0 with leading := 1, deadline := 1 }).updStream 0 fun x => { x with cls := 0 }).live? 0).any
       (fun q => s.missed q.1 q.2 && q.2.waitFrom == none) = true) ∧
    (let s := jobbed job0
     (s.live? 0).isSome = true ∧ ((s.live? 0).all fun q => q.2.leading ≤ q.2.waits && q.2.next == 0 &&
        q.2.descs[0]?.any (·.op == oSignal) && !s.missed q.1 q.2 && s.retOf q.1.owner (q.2.at 0) == [] && s.descCheck q.1 q.2 0 == none) = true) ∧
    (let s := jobbed job0 [run0]
     s.runAt 0 0 = some run0 ∧ run0.done = true ∧ run0.hps ≠ [] ∧ run0.marked = true ∧ (s.opOf 0 0).any (fun o => o.r == run0) = true ∧
      s.waitsRemote 0 0 = false ∧ (s.part run0.part).step = 0) ∧
    (let s := { jobbed { job0 with leading := 1, waitFrom := some 0, waitUs := 1, deadline := 2 ^ 63 } with now := 1000 }
     ((s.live? 0).any fun q => q.2.waitFrom == some 0 && !s.missed q.1 q.2 && q.2.waitUs != 0 && q.2.waits < q.2.leading) = true ∧
      0 + 1 * 1000 ≤ s.now) ∧
    (let o : Outstanding := { msg := { typ := mSyncOp, src := 0, dst := 1, tag := 3 }, since := 0, resendAt := some 0, job := some (0, 0) }
     let s := { up with valley := { up.valley with outstanding := [o] } }
     s.valley.outstanding.filter (fun o => o.msg.typ == mSyncOp && o.job.any (·.1 == 0) && o.resendAt.any (· ≤ s.now)) = [o]) ∧
    up.sched.recheck ≠ up.now / 10000 := by decide +kernel
theorem test_witness_JobRows_order : ∀ k, k < 0 → k < (0 : Nat) ∨ ([] : List Nat).contains k = true := fun _ h => .inl h
/-- Partition 0 in step `n` of its reset. -/
def resetting (n : Nat) : State := up.updPart 0 fun x => { x with step := n, state := .resetting, scrub := [7] }
theorem test_witness_TeardownRows :
    (let s := { jobbed job0 with streams := [{ index := 0, gen := 0, owner := 0, state := .teardown, endCause := some (0, 0, 0) }] }
     s.core = true ∧ ((s.closeEnds 0).stream? 0).isSome = true ∧ (s.closeEnds 0).canTear 0 = true) ∧
    (let s := (jobbed job0 [run0]).updPart 0 fun x => { x with step := 2 }
     s.core = true ∧ (s.opOf 0 0).any (fun o => o.r == run0) = true ∧ run0.marked = true ∧ run0.hps ≠ [] ∧ (s.part run0.part).step ≠ 0) ∧
    ((resetting 3).core = true ∧ ((resetting 3).part 0).step = 3 ∧
      (∀ o ∈ (resetting 3).valley.outstanding, ¬(o.msg.part = 0 ∧ o.msg.typ ≠ mSyncOp ∧ o.unit.isSome = true))) ∧
    (let x : Master := { kind := 0, unit := 1, resetAt := some 0 }
     let s := { up with sched := { up.sched with masters := [x] } }
     s.sched.masters.find? (fun x => x.kind == 0 && x.unit == 1 && x.resetAt.any (· + 64000 ≤ s.now)) = some x) ∧
    (((resetting 6).part 0).step = 6 ∧ ((resetting 6).part 0).scrub.contains 7 = true) ∧ ((resetting 7).part 0).step = 7 ∧
    ((resetting 3).sec.error = false ∧ (resetting 6).sec.error = false ∧ (resetting 7).sec.error = false) ∧
    (let s := { resetting 7 with sec := { (resetting 7).sec with error := true } }; s.core = true ∧ s.sec.error = true) ∧
    { up with mem := { up.mem with scrubbing := [(frameKey 7 0 0 / 4096, frameKey 7 1 0 / 4096)] } }.mem.scrubbing.any
      (fun r => r.1 ≤ frameKey 7 0 0 / 4096 && frameKey 7 0 0 / 4096 < r.2) = true := by decide +kernel
theorem test_witness_LedgerRows :
    up.core = true ∧ up.ledger.window ≠ up.now / 1000 + 1 ∧
    (let x : Resource := { kind := 0, index := 0, dir := 0, overc := true, okSince := some 0 }
     let s := { up with ledger := { up.ledger with resources := [x], window := up.now / 1000 + 1 } }
     s.ledger.window = s.now / 1000 + 1 ∧
     s.ledger.resources.find? (fun r => r.kind == 0 && r.index == 0 && r.dir == 0) = some x ∧ x.overc = true ∧ x.okSince = some 0 ∧
      0 + 100000000 ≤ s.windowBegan ∧ s.now ≤ s.windowBegan + 1) := by decide +kernel

/-! ### Witnesses: Basins, ports, the Valley, media and errors -/

/-- Basin 7 changed, in a window that has begun. -/
def basined (f : Basin → Basin) : State := ({ up with ledger := { up.ledger with window := up.now / 1000 + 1 } } : State).updBasin 7 f
theorem test_witness_BasinRows :
    (let s := basined fun x => { x with patrolStart := up.now }
     let t := s.windowDue
     s.core = true ∧ 7 < 8 ∧ (t.basin 7).state ≠ .failed ∧ t.issues 7 = true ∧ t.patrolOpen 7 = true ∧
      (t.now - (t.basin 7).patrolStart) * patrolLen / 43200000000000 ≤ (t.basin 7).patrol ∧ (t.arbitrate 7).isNone = true ∧
      (t.basin 7).patrol ≤ (t.now - (t.basin 7).patrolStart) * patrolLen / 43200000000000) ∧
    (let t := (basined fun x => { x with patrolStart := 0 }).windowDue
     t.patrolOpen 7 = true ∧ (t.basin 7).patrol < (t.now - (t.basin 7).patrolStart) * patrolLen / 43200000000000) ∧
    ((basined fun x => { x with
        patrolStart := up.now
        queue := [{ part := 0, stream := none, read := true, lc := false, mnt := false, addr := frameKey 7 0 0, bytes := 64, deadline := 0 }] }).windowDue.arbitrate 7).isSome = true ∧
    (let s := basined fun x => { x with reportAt := some (up.now - 1000000000) }
     (s.basin 7).state = .ready ∧ (∀ t ∈ (s.basin 7).reportAt, t + 1000000000 ≤ s.now) ∧
      ((basined fun x => { x with reportAt := some (up.now - 999999999) }).basin 7).reportAt = some (up.now - 999999999) ∧
      up.now < up.now - 999999999 + 1000000000) ∧
    (let s := basined fun x => { x with state := .train, retraining := true }
     s.core = true ∧ (s.basin 7).state = .train ∧ (s.basin 7).retraining = true) ∧
    (∀ st ∈ [BasinState.reset, .init, .repair, .lane, .train, .test],
      let s := { (basined fun x => { x with state := st }) with boot := { stage := .test } }
      s.core = true ∧ (s.boot.stage = .test ∨ s.boot.stage = .train) ∧ (s.basin 7).retraining = false ∧ (s.basin 7).state = st ∧ (s.basin 7).attempts = 0) ∧
    ((basined fun x => { x with state := .train, attempts := 1 }).basin 7).attempts ≠ 0 ∧
    (let s := basined fun x => { x with temp := 60 }
     (s.basin 7).state ≠ .failed ∧ s.boot.stage = .ready ∧ 20 ≤ ((s.basin 7).temp - (s.basin 7).trainTemp).natAbs ∧ RetrainCause.eye ≠ .temperature) := by
  decide +kernel
theorem test_witness_BasinRows_drain :
    ((basined fun x => { x with psrDue := true }).basin 7).psrDue = true ∧ ((basined fun x => { x with psrDue := true }).basin 7).state = .ready ∧
    (let s := basined fun x => { x with state := .drain, repairing := some (⟨0, 7⟩, 0) }
     (s.basin 7).psrDue = false ∧ (s.basin 7).state = .drain ∧ (s.basin 7).repairing.isSome = true) ∧
    (let s := basined fun x => { x with state := .drain }
     (s.basin 7).psrDue = false ∧ (s.basin 7).state = .drain ∧ (s.basin 7).repairing = none) ∧
    (let s := basined fun x => { x with queued := some 5 }
     s.nextBasin = some (7, 5, false) ∧ s.nextPort = none ∧ (s.updPort 23 fun x => { x with queued := some 5 }).nextPort = some (23, 5) ∧
      (s.updPort 23 fun x => { x with queued := some 4 }).nextPort = some (23, 4)) ∧
    (let s := (basined fun x => { x with state := .repair, repairing := some (⟨0, 7⟩, 0) }).appendDefect { typ := 0x08, source := 1, state := 1, temp := 40, loc := 7 }
     s.core = true ∧ (s.basin 7).repairing = some (⟨0, 7⟩, 0) ∧ (s.basin 7).state = .repair ∧ (s.rowEntry 0).isSome = true) := by decide +kernel
theorem test_witness_BasinThermalRows :
    (up.core = true ∧ 7 < 8 ∧ (∀ w ∈ (up.basin 7).readAt, w + 100000 ≤ up.now) ∧ up.tooHot 7 95 = false ∧ (up.basin 7).throttled = false ∧
      ((up.updBasin 7 fun x => { (x.heard 94 0 up.now false).defer with readAt := some up.now }).basin 7).throttled = false ∧
      ((up.updBasin 7 fun x => { (x.heard 95 0 up.now false).defer with readAt := some up.now }).basin 7).throttled = true) ∧
    (up.tooHot 7 105 = true ∧ (((up.updBasin 7 fun x => { (x.heard 105 0 up.now true).defer with readAt := some up.now }).toSelfRefresh 7 false).basin 7).throttled = true) ∧
    (let s := basined fun x => { x with readAt := some (up.now - 99999) }
     (s.basin 7).readAt = some (up.now - 99999) ∧ s.now < up.now - 99999 + 100000) ∧
    ((basined fun x => { x with throttled := true }).basin 7).throttled = true ∧ (basined fun x => { x with throttled := true }).tooHot 7 105 = true ∧
    (let x : Basin := { psr := true, below95 := some 0 }
     x.psr = true ∧ x.below95 = some 0 ∧ 0 + 10000000 ≤ 10000000) ∧
    (let x : Basin := { throttled := true, below92 := some 0 }
     x.psr = false ∧ x.throttled = true ∧ x.below92 = some 0) ∧
    (let x : Basin := { doubled := true, below82 := some 0 }
     x.psr = false ∧ x.throttled = false ∧ x.doubled = true ∧ x.below82 = some 0) := by decide +kernel
def ported (f : Port → Port) : State := up.updPort 23 f
theorem test_witness_PortRows :
    (let s := ported fun x => { x with state := .detect }
     s.core = true ∧ 23 < 24 ∧ (s.port 23).state = .detect ∧ s.boot.stage ≠ .rails ∧ s.boot.stage ≠ .secureBoot) ∧
    (let s := ported fun x => { x with state := .equalise }
     (s.port 23).state = .equalise ∧ (s.laneSet 23 (s.port 23).cand).isSome = true) ∧
    ((ported fun x => { x with state := .fecLock }).port 23).state = .fecLock ∧
    (let s := ported fun x => { x with state := .coenoInit }
     (s.port 23).state = .coenoInit ∧ (s.port 23).authFailed = false ∧ s.authOk { chip := 1, lifecycle := 0, authentic := true } = true ∧
      s.authOk { chip := 1, lifecycle := 1, authentic := true } = false) ∧
    ((up.port 23).live = true ∧ 100 < (101 : Int).natAbs ∧ (up.port 23).lastFlit + 1000000 ≤ up.now) := by decide +kernel
def flit0 : Flit := { seq := 0, ack := 4095, nak := false, vc := 0, idle := false, payload := [] }
theorem test_witness_FlitRows :
    (up.core = true ∧ (up.port 23).live = true ∧ { flit0 with checkOk := false }.checkOk = false ∧ flit0.checkOk = true ∧ { flit0 with idle := true }.idle = true) ∧
    (let b := (up.flitHeard 23).flitAcked 23 flit0
     flit0.idle = false ∧ (b.port 23).live = true ∧ flit0.seq % 4096 = (b.port 23).rxNext ∧ 5 % 4096 ≠ (b.port 23).rxNext) ∧
    (let t := up.windowDue
     (t.port 23).live = true ∧ (t.port 23).replayFrom = none ∧ (t.port 23).replay.length < 1024 ∧ t.nextVc 23 = none) ∧
    ((ported fun x => { x with replayFrom := some 0 }).windowDue.port 23).replayFrom = some 0 ∧
    1024 ≤ ((ported fun x => { x with replay := List.replicate 1024 flit0 }).windowDue.port 23).replay.length ∧
    (ported fun x => { x with txq := [{ typ := mHeartbeat, src := 0, dst := 1 }] }).windowDue.nextVc 23 = some 3 ∧ up.sec.lifecycle = 0 := by decide +kernel
/-- A message from chip 1 for this chip, about the partition's store. -/
def msg (typ : Nat) (data : List Byte := []) : Msg := { typ := typ, src := 1, dst := 0, tag := 3, addr := storeBase, len := 1, part := 0, data := data }
/-- A request of this chip that chip 1 has not answered. -/
def waiting (typ : Nat) : State := { up with valley := { up.valley with outstanding := [
  { msg := { typ := typ, src := 0, dst := 1, tag := 3, len := 1 }, since := 0, resendAt := some 0, job := some (0, 0) }] } }
theorem test_witness_RequestRows :
    (∀ t ∈ [mRdReq, mWrReq, mSyncOp, mRdRsp, mWrAck, mSyncRsp, mRefuse, mHold, mRelease], Delivered 23 (msg t) up) ∧
    (let t := up.taken1 23 (msg mRdReq)
     t.denies (msg mRdReq) = none ∧ t.retPlains (msg mRdReq) = [] ∧ t.servable (msg mRdReq) = true) ∧
    (let t := up.taken1 23 (msg mWrReq)
     t.dedupOf (msg mWrReq) = none ∧ t.valley.heldReqs = [] ∧ t.valley.dedup.length < dedupSize ∧ t.denies (msg mWrReq) = none ∧
      t.retPlains (msg mWrReq) = [] ∧ t.servable (msg mWrReq) = true ∧ t.dedupOf (msg mSyncOp) = none) ∧
    (let s := { up with valley := { up.valley with dedup := [{ src := 1, tag := 3, response := msg mWrAck, made := 0 }] } }
     Delivered 23 (msg mWrReq) s ∧ ((s.taken1 23 (msg mWrReq)).dedupOf (msg mWrReq)).isSome = true) ∧
    (let t := (waiting mRdReq).taken1 23 (msg mRdRsp)
     Delivered 23 (msg mRdRsp) (waiting mRdReq) ∧ (msg mRdRsp).ext = none ∧ { msg mRdRsp with ext := some (1, 0) }.ext = some (1, 0) ∧
      (t.outst 1 3).any (fun o => o.msg.typ == mRdReq && !(t.releaseTag 1 3).absorbs o && !o.stale && o.job == some (0, 0)) = true) ∧
    (((waiting mRdReq).updOut 1 3 fun o => { o with stale := true }).outst 1 3).any (·.stale) = true ∧
    (((waiting mWrReq).taken1 23 (msg mWrAck)).outst 1 3).isSome = true ∧
    (((waiting mSyncOp).taken1 23 (msg mSyncRsp)).outst 1 3).any (fun o => o.job == some (0, 0) && msgNat o.msg 0 1 == 0) = true ∧
    (msg mRefuse ∉ up.valley.selfRsp) := by decide +kernel
theorem test_witness_RequestTimerRows :
    (let s := { up with valley := { up.valley with heldReqs := [(msg mWrReq, 0)] } }
     s.core = true ∧ s.valley.heldReqs.find? (fun h => h.1.src == 1 && h.1.tag == 3) = some (msg mWrReq, 0) ∧ (msg mWrReq).typ ≠ mSyncOp ∧
      s.servable (msg mWrReq) = true ∧ s.retPlains (msg mWrReq) = []) ∧
    (let s := { up with valley := { up.valley with heldReqs := [(msg mSyncOp, 0)] } }
     s.valley.heldReqs.find? (fun h => h.1.src == 1 && h.1.tag == 3) = some (msg mSyncOp, 0) ∧ (msg mSyncOp).typ = mSyncOp ∧ 0 + 2000000 ≤ s.now) ∧
    ((waiting mRdReq).core = true ∧ ((waiting mRdReq).outst 1 3).any (fun o => decide (o.since + 4000000 ≤ up.now) && decide (o.expiries < 15) && o.resendAt == some 0) = true) ∧
    (let s := (waiting mRdReq).updOut 1 3 fun o => { o with expiries := 15 }
     (s.outst 1 3).any (fun o => decide (15 ≤ o.expiries)) = true) ∧
    (msg mRefuse).typ = mRefuse ∧ msg mRefuse ∈ { up.valley with selfRsp := [msg mRefuse] }.selfRsp := by decide +kernel
/-- Group 0 of the partition: chips 0 and 1. -/
def grouped : State := { up with coll := { groups := [{ index := 0, part := 0, id := 0, members := [0, 1], rank := 0, colls := [{ s := 0, d := 0, seq := 9, started := some 0 }] }] } }
def collMsg : Msg := msg mCollData [0, 0, 0, 0, 5]
def ctrl (op : Nat) : Msg := msg mCollCtrl ([BitVec.ofNat 8 op] ++ List.replicate 7 0 ++ [9#8] ++ List.replicate 7 0)
theorem test_witness_CollectiveRows :
    (Delivered 23 collMsg grouped ∧ Delivered 23 (ctrl 0) grouped ∧ Delivered 23 (ctrl 3) grouped ∧ Delivered 23 (ctrl 0) up) ∧
    (let t := grouped.taken1 23 collMsg
     collMsg.typ = mCollData ∧ (t.groupBy 0 (msgNat collMsg 0 4)).any (fun x => x.rankOf 1 == some 1 && x.aborted == none && x.staged.isEmpty &&
        x.colls.find? (·.seq == msgNat collMsg 4 4) == none && decide (x.nextSeq ≤ msgNat collMsg 4 4)) = true) ∧
    (let t := grouped.taken1 23 (ctrl 1)
     msgNat (ctrl 1) 0 1 = 1 ∧ msgNat (ctrl 2) 0 1 = 2 ∧ msgNat (ctrl 3) 0 1 = 3 ∧ msgNat (ctrl 0) 0 1 = 0 ∧
      (t.groupBy 0 (msgNat (ctrl 1) 4 4)).any (fun x => x.members.contains 1 &&
        x.colls.any (fun c => c.seq == msgNat (ctrl 1) 8 4 && c.started.isSome)) = true) ∧
    ((up.taken1 23 (ctrl 0)).groupBy 0 (msgNat (ctrl 0) 4 4) = none) ∧
    (grouped.core = true ∧ (grouped.group? 0).any (fun x => (x.colls.find? (fun c => c.started.any fun t => t + (x.timeout + c.ext) * 1000000 ≤ grouped.now)).any
      fun c => (grouped.stream? c.s).bind (·.head?) == none) = true) := by decide +kernel
/-- A chip that has joined a Valley whose time root is chip 1, whose heartbeats it has heard on port 23. -/
def joined : State := { (ported fun x => { x with echo := some (0, 0), peerRoot := 1 }) with
  now := 1000003, valley := { up.valley with joined := true, members := [{ chip := 1, root := true }] } }
def beatMsg : Msg := msg mHeartbeat ([1, 0, 0, 0, 0, 0, 0, 0, 3] ++ List.replicate 7 0 ++ [1] ++ List.replicate 7 0 ++ [1, 0, 0, 0])
theorem test_witness_PeerRows :
    ((∀ t ∈ up.valley.beatAt, up.now < t ∨ t + 100000 ≤ up.now) ∧
      (let s := { up with valley := { up.valley with beatAt := some (up.now - 99999) } }
       s.valley.beatAt = some (up.now - 99999) ∧ up.now - 99999 ≤ s.now ∧ s.now < up.now - 99999 + 100000)) ∧
    (up.core = true ∧ (∀ t ∈ [mHeartbeat, mJoin, mLeave, mLoss, mOwnerNotice], Delivered 23 (msg t) up) ∧ (up.taken1 23 (msg mHeartbeat)).valley.joined = false) ∧
    (let t := joined.taken1 23 beatMsg
     let heard := t.updPort 23 fun x => { x with
       echo := some (msgNat beatMsg 0 8, t.now), peerRoot := msgNat beatMsg 24 2, peerHops := msgNat beatMsg 26 1, peerState := msgNat beatMsg 27 1 }
     Delivered 23 beatMsg joined ∧ t.valley.joined = true ∧ msgNat beatMsg 8 8 ≠ 0 ∧ msgNat beatMsg 16 8 ≠ 0 ∧ t.now ≤ msgNat beatMsg 8 8 + 1000000 ∧
      heard.timeRoot ≠ heard.chip ∧ heard.parent = some 23) ∧
    (msgNat (msg mLoss [1]) 0 2 % 4096 ≠ up.chip ∧ msgNat (msg mLoss) 0 2 % 4096 = up.chip ∧ (msg mOwnerNotice).dst = up.chip ∧
      Delivered 23 { msg mOwnerNotice with dst := 2 } up ∧ { msg mOwnerNotice with dst := 2 }.dst ≠ up.chip) ∧
    (let s := { up with valley := { up.valley with routes := [{ dest := 1, ports := [23], downSince := some 0 }] } }
     (s.route 1).any (fun r => r.downSince == some 0) = true ∧ 0 + 5000000 ≤ s.now) := by decide +kernel
/-- A video output context of 64 × 64 at 1 frame a second on core 0, and a decoder on core 12. -/
def enc0 : Enc := { index := 0, part := 0, av1 := false, ten := false, split := 0, cores := [0], width := 64, height := 64, fps := 1, bitrate := 100,
                    irPeriod := 0, resv := [0], buffer := 0, openAt := 0 }
def dec0 : Dec := { index := 0, part := 0, codec := 0, core := 12, maxW := 64, maxH := 64, outAddr := 0, outFrames := 2, resv := [1], slots := [(1, 0, 0)] }
def filming (f : Enc → Enc) : State := { up with media := { up.media with encs := [f enc0], decs := [dec0] } }
theorem test_witness_MediaRows :
    (∀ f ∈ [id, (fun x => { x with coreLost := true }), (fun x => { x with waiting := some { stamp := 0, k := 0, stage := 1 } }),
        (fun x => { x with coreLost := true, waiting := some { stamp := 0, k := 0, stage := 1 } })],
     let s := filming f
     s.core = true ∧ s.enc? 0 = some (f enc0) ∧ ((f enc0).latchAt s.now).isSome = true ∧ (f enc0).openAt ≤ s.now ∧ (f enc0).lastLatch ≠ some s.now ∧
      (f enc0).closing = none ∧ (((List.range 8).foldl (fun s n => s.judge 0 n s.now)
        (s.updEnc 0 fun y => ({ y.settle s.now with lastLatch := some s.now } : Enc))).enc? 0).any
        (fun y => y.coreLost == (f enc0).coreLost && y.waiting.isSome == (f enc0).waiting.isSome) = true) ∧
    (let s := filming fun x => { x with waiting := some { stamp := 0, k := 0, stage := 1 } }
     (s.media.encs.foldl (fun s x => s.judgeFrame x.index) s).nextCompose.isSome = true) ∧
    (let t := (filming fun x => { x with waiting := some { stamp := 0, k := 0, stage := 2 } }).windowDue
     (t.media.cores.getD 0 {}).row = none ∧ bit t.boot.mediaOk.toNat 0 = true ∧ (t.nextEnc 0).isSome = true ∧
      (t.media.cores.getD 12 {}).row = none ∧ bit t.boot.mediaOk.toNat 12 = true ∧ (t.nextDec 12).isSome = true) ∧
    (let s := (filming id).updCore 0 fun c => { c with row := some 0 }
     (s.media.cores.getD 0 {}).row = some 0 ∧ (s.media.cores.getD 0 {}).void = false ∧ (s.enc? 0).isSome = true) ∧
    (let s := (filming id).updCore 12 fun c => { c with row := some 2048 }
     (s.media.cores.getD 12 {}).row = some 2048 ∧ (s.media.cores.getD 12 {}).void = false ∧ (s.dec? (2048 - 2048)).isSome = true) := by decide +kernel
/-- R402 to R404: a held frame leaves in output order, END of an empty slot and damage output the rest. -/
def twoHeld : State :=
  let f (k : Nat) : HeldFrame := { order := k, w := 0, h := 0, ten := false, pts := 0, ended := 0, luma := [], chroma := [] }
  (filming id).updDec 0 fun d => { d with held := [f 5, f 3] }
theorem test_held_frames :
    ((twoHeld.output 0 1).dec? 0).any (fun d => d.held.map (·.order) == [5] && d.outputs == 1) = true ∧
    ((twoHeld.outputAll 0).dec? 0).any (fun d => d.held == [] && d.outputs == 2 && d.pos == 2) = true ∧
    ((twoHeld.decRow { dec0 with held := [] } 0 false).dec? 0).any (fun d => d.slots == [] && d.held.length == 2) = true ∧
    ((twoHeld.decDamage dec0 1 0 0 0).dec? 0).any (fun d => d.held == [] && d.stopped) = true := by decide +kernel
theorem test_witness_ErrorRows :
    (up.core = true ∧ 0x0C ∈ [0x02, 0x03, 0x04, 0x05, 0x0C] ∧ locOk 0x0C 65535 = true ∧ locOk 0x07 65535 = true ∧ bit up.boot.hpOk.toNat 31 = true ∧
      bit up.boot.mediaOk.toNat 15 = true ∧ (up.media.cores.getD 15 {}).row = none) ∧
    { up with boot := { up.boot with tests := [(⟨0, 7⟩, 2, 0)] } }.boot.tests = (⟨0, 7⟩, 2, 0) :: [] := by decide +kernel

/-! ### Witnesses: Lolin commands -/

/-- Params from byte offset, bit and value. -/
def pp (l : List (Nat × Nat × Nat)) : Nat := (l.map fun x => x.2.2 * 2 ^ (8 * x.1 + x.2.1)).sum
/-- The partition with one of each thing that a command can name, and a CMD window 0 at the PF and at its own function. -/
def rich : State :=
  let w : Window := { mapped := true, bind := 2, count := 1, shift := 16, slots := [{ owner := 2 }] }
  { ((up.updWindow 0 0 fun _ => w).updWindow 1 0 fun _ => { w with base := storeBase }).updWindow 1 1 fun _ => { w with off := 0x200000, slots := [{ owner := 1 }] } with
    parts := { exist := true, cfg := { hpMask := 3, quota := [100, 100, 100, 100], mediaShare := 100 } } :: List.replicate 31 {}
    streams := [{ index := 0, gen := 0, owner := 0, qdepth := 4 }]
    sync := { objs := [{ index := 0, gen := 0, part := 0, typ := 3 }], free := { next := 1 } }
    kv := { exist := true, pages := 64, freeCount := 63, backing := storeBase + 0x10000 } :: List.replicate 7 {}
    media := { up.media with encs := [enc0], decs := [{ dec0 with slots := [] }] }
    coll := { groups := [{ index := 0, part := 0, id := 9, members := [0, 1], rank := 0 }] }
    ledger := { up.ledger with resvs := [{ id := 5, kind := 0, index := 0, rank := 2, amount := 10, part := 0 }] }
    mem := { up.mem with allocs := [{ part := 0, base := 0x10000000, size := 4096 }], cells := [(storeBase + 2, 1#8), (storeBase + 64, 0x0C#8), (storeBase + 83, 0x20#8), (storeBase + 88, 1#8)] } }
/-- The row of a command that reaches its own check, and that check. -/
def acc (op m : Nat) (c : Cmd) (slot : Option (Nat × Nat) := none) : Prop := Accepted op m c (took op m c rich slot) (tk op c slot)
def passes (op m : Nat) (c : Cmd) (chk : State → Block → Taken → Option (Nat × Nat)) (slot : Option (Nat × Nat) := none) : Prop :=
  Accepted op m c (took op m c rich slot) (tk op c slot) ∧ chk (took op m c rich slot) (entryOf c op) (tk op c slot) = none

/-- As a Bool, so that the kernel decides it. -/
def accB (op m : Nat) (c : Cmd) (slot : Option (Nat × Nat) := none) (chk : State → Block → Taken → Option (Nat × Nat) := noCheck) : Bool :=
  decide (Accepted op m c (took op m c rich slot) (tk op c slot)) && (chk (took op m c rich slot) (entryOf c op) (tk op c slot)).isNone
def sl : Option (Nat × Nat) := some (0, 0)
theorem test_witness_CommandFrame :
    (took 0x0103 1 cmd { up with cp := {} }).taken ⟨1, 7⟩ = some (tk 0x0103 cmd) ∧ (took 0x0103 1 cmd { up with cp := {} }).cpUp = false ∧
    (let s := took 0x0104 1 (cmd 0 1) up
     s.taken ⟨1, 7⟩ = some (tk 0x0104 (cmd 0 1)) ∧ s.notYet 1 (cmd 0 1) (entryOf (cmd 0 1) 0x0104) (tk 0x0104 (cmd 0 1)) = false ∧
      precheck s 1 (entryOf (cmd 0 1) 0x0104) = some (ST.mbxDenied, 0)) ∧
    (let c : Cmd := { cmd with cut := true }
     (took 0x0103 1 c up).taken ⟨1, 7⟩ = some (tk 0x0103 c) ∧ (took 0x0103 1 c up).notYet 1 c (entryOf c 0x0103) (tk 0x0103 c) = false ∧
      precheck (took 0x0103 1 c up) 1 (entryOf c 0x0103) = none) ∧
    accB 0x0103 1 cmd = true ∧ up.taken ⟨1, 7⟩ = none ∧ (up.mb 1).posted = false ∧ { up with boot := {} }.admits 1 (entryOf cmd 0x0103) = false ∧
    { up with boot := {} }.taken ⟨1, 7⟩ = none := by decide +kernel
/-- An entry is posted and taken. -/
theorem test_witness_CommandFrame_present :
    let s := up.updMb 1 fun b => { b with sqTail := 1 }
    s.taken ⟨1, 7⟩ = none ∧ ((s.present ⟨1, 7⟩ (entryOf cmd 0x0103)).taken ⟨1, 7⟩).isSome = true := by decide +kernel
theorem test_witness_CommandFrame_refused :
    accB 0x0203 0 cmd = true ∧ slotCheck rich (entryOf cmd 0x0203) (tk 0x0203 cmd) = some (ST.fordNotOwned, 0) := by decide +kernel
theorem test_witness_DeviceCommands :
    accB 0x0101 1 cmd && accB 0x0101 1 (cmd 0 1) && accB 0x0102 1 cmd && accB 0x0103 1 cmd && accB 0x0104 0 (cmd 0 1) && accB 0x0105 0 (cmd 0 1) &&
    accB 0x0105 0 (cmd 0 3) && accB 0x0201 0 (cmd 0 255) none chkProfileApply && accB 0x0201 0 (cmd 0 511) none chkProfileApply && accB 0x0202 0 cmd sl &&
    accB 0x0203 0 cmd sl && accB 0x0E01 0 cmd sl && decide (rich.ladderLevel < 2) && (rich.slotArea ⟨0, 7⟩ (tk 0x0202 cmd sl)).isSome = true := by decide +kernel
theorem test_witness_DeviceCommands_power :
    (let s := took 0x0105 0 (cmd 0 1) up
     Accepted 0x0105 0 (cmd 0 1) s (tk 0x0105 (cmd 0 1)) ∧ s.blocked = 0 ∧ s.powerHeld (cmd 0 1).params.toNat = false ∧ s.power.chip ≠ .qsc ∧
      Accepted 0x0105 0 (cmd 0 1) { s with power := { s.power with chip := .qsc } } (tk 0x0105 (cmd 0 1)) ∧
      { s with power := { s.power with chip := .qsc } }.powerHeld (cmd 0 1).params.toNat = false ∧
      { s with power := { s.power with chip := .qsc } }.blocked = 0) ∧
    (let s := took 0x0105 0 (cmd 0 2) up
     let q : State := { s with power := { s.power with chip := .qsc } }
     q.core = true ∧ q.taken ⟨0, 7⟩ = some (tk 0x0105 (cmd 0 2)) ∧ q.powerHeld (cmd 0 2).params.toNat = true) ∧
    (let s := took 0x0105 0 (cmd 0 3) up
     Accepted 0x0105 0 (cmd 0 3) s (tk 0x0105 (cmd 0 3)) ∧ s.powerHeld (cmd 0 3).params.toNat = false ∧ s.blocked = 0) := by decide +kernel
theorem test_witness_PartitionCommands :
    accB 0x0301 0 (cmd 0 (pp [(0, 0, 4), (32, 0, 1)])) none chkPartCreate && accB 0x0302 0 (cmd (hPart 0)) && accB 0x0303 0 (cmd (hPart 0)) &&
    accB 0x0304 0 (cmd (hPart 0)) && accB 0x0B01 1 (cmd (hStream 0 0)) none (chkAcctRead 1) && accB 0x0B01 1 cmd none (chkAcctRead 1) &&
    accB 0x0B02 0 (cmd (hPart 0) 1) none chkAcctModeSet && !(rich.heldAdmin 0 (cmd (hPart 0) 1)) && !(rich.heldAdmin 1 cmd) && (rich.streamOf 0 (hStream 0 0)).isSome && (rich.streamOf 0 0).isNone = true := by decide +kernel
theorem test_witness_StreamCommands :
    accB 0x0401 1 (cmd 0 (pp [(0, 0, 2), (4, 0, 1)])) none (chkStreamOpen 1) && accB 0x0401 1 (cmd 0 (pp [(0, 0, 2), (1, 3, 1), (2, 0, 1), (4, 0, 1)])) none (chkStreamOpen 1) &&
    (rich.openPool 1 (entryOf (cmd 0 (pp [(0, 0, 2), (1, 3, 1), (2, 0, 1), (4, 0, 1)])) 0x0401)).isSome &&
    accB 0x0402 1 (cmd (hStream 0 0) (pp [(0, 0, storeBase + 64), (8, 0, 1)])) none (chkSubmit 1) && accB 0x0403 1 (cmd (hStream 0 0)) &&
    accB 0x0404 1 (cmd (hStream 0 0)) && accB 0x0405 1 (cmd (hStream 0 0)) &&
    (rich.streamOf 0 (hStream 0 0)).any (fun x => x.state == .opened && decide (x.jobs.length < x.qdepth) && !(rich.part x.owner).busy &&
      rich.validate x (storeBase + 64) 1 == none && rich.submitRet x (storeBase + 64) 1 == [] &&
      (rich.updPlain 0 fun y => { y with state := .ret }).submitRet x (storeBase + 64) 1 != []) &&
    ((rich.updPart 0 fun p => { p with busy := true }).part 0).busy = true := by decide +kernel
theorem test_witness_StreamCommands_close :
    let s := took 0x0404 1 (cmd (hStream 0 0)) (rich.updStream 0 fun x => { x with state := .teardown })
    Accepted 0x0404 1 (cmd (hStream 0 0)) s (tk 0x0404 (cmd (hStream 0 0))) ∧
    (s.streamOf 0 (hStream 0 0)).any (fun x => x.state == .teardown && x.close.isNone) = true := by decide +kernel
theorem test_witness_MemoryCommands :
    accB 0x0501 1 (cmd 0 4096) && (rich.memFind (entryOf (cmd 0 4096) 0x0501)).isSome && accB 0x0502 1 (cmd 0 0x10000000) none (chkMemFree 1) &&
    (rich.allocAt 0 0x10000000).isSome && accB 0x0503 1 (cmd 0 (pp [(2, 0, 2), (4, 0, 10)])) none (chkLedgerReserve 1) && accB 0x0504 1 (cmd 0 5) &&
    (rich.ownResv 0 5).isSome && accB 0x0505 1 cmd && accB 0x0601 1 (cmd 0 (pp [(1, 0, 4), (2, 0, 1), (4, 0, 16), (8, 0, 4), (16, 0, storeBase)])) none (chkKvPoolCreate 1) &&
    rich.freePool.isSome && accB 0x0602 1 (cmd (hPool 0 0)) none (chkKvPoolDestroy 1) && (rich.poolOf 0 (hPool 0 0)).isSome &&
    accB 0x0603 1 (cmd (hStream 0 0) (hStream 0 0)) none (chkKv 1) && accB 0x0604 1 (cmd (hStream 0 0)) none (chkKv 1) &&
    accB 0x0605 1 (cmd (hStream 0 0)) none (chkKv 1) && (eOpcode (entryOf cmd 0x0603) == 0x0603) = true := by decide +kernel
theorem test_witness_MemoryCommands_fork :
    let c := cmd (hStream 0 0) (hStream 0 0)
    (((took 0x0603 1 c rich).streamOf 0 (hStream 0 0)).any fun x =>
      ((((took 0x0603 1 c rich).wait ⟨1, 7⟩).gate x.index ⟨1, 7⟩).forkDest 1 (entryOf c 0x0603)).isSome) = true := by decide +kernel
theorem test_witness_SyncFordAndMediaCommands :
    accB 0x0701 1 (cmd 0 3) none chkSyncAlloc && accB 0x0702 1 (cmd (hSync 0 0)) none (chkSyncFree 1) && accB 0x0703 1 (cmd (hSync 0 0)) none (chkSyncRecover 1) &&
    accB 0x0704 1 (cmd (hSync 0 0)) && (rich.syncOf 0 (hSync 0 0)).isSome &&
    accB 0x0801 1 (cmd 0 (pp [(0, 0, 5), (1, 2, 2), (2, 0, 1), (4, 0, 12), (5, 0, 2), (8, 0, 0x100000), (16, 0, storeBase)])) none (chkFordMap 1) &&
    accB 0x0802 1 (cmd (hWindow 1)) none (chkFordUnmap 1) && accB 0x0802 1 (cmd (hWindow 1) 1) none (chkFordUnmap 1) && accB 0x0906 1 (cmd (hMedia 0)) && accB 0x0907 1 (cmd (hMedia 0)) &&
    accB 0x0902 1 (cmd (hMedia 0)) && (rich.encOf 0 (hMedia 0)).any (fun x => x.closing.isNone && x.frame.isNone) &&
    accB 0x0908 1 (cmd (hMedia 0) (pp [(2, 0, 1)])) none (chkMediaLayerSet 1) && accB 0x0904 1 (cmd (hMedia 2048)) && accB 0x0905 1 (cmd (hMedia 2048)) &&
    (rich.decOf 0 (hMedia 2048)).any (·.slots.isEmpty) = true := by decide +kernel
theorem test_witness_SyncFordAndMediaCommands_open :
    (let c := cmd 0 (pp [(0, 0, 1), (1, 0, 1), (2, 0, 256), (4, 0, 64), (6, 0, 1), (8, 0, 100)])
     accB 0x0901 1 c none (chkMediaEncOpen 1) && (rich.encPlan 0 (entryOf c 0x0901)).isSome) = true ∧
    accB 0x0903 1 (cmd 0 (pp [(2, 0, 64), (4, 0, 64), (8, 0, storeBase), (16, 0, 2)])) none (chkMediaDecOpen 1) = true ∧
    (rich.takeCores 0 (decDemand 0 64 64) 1 decCores).isSome = true := by decide +kernel
theorem test_witness_SyncFordAndMediaCommands_close :
    let s := { rich with media := { rich.media with encs := [{ enc0 with frame := some { stamp := 0, k := 0 } }] } }
    Accepted 0x0902 1 (cmd (hMedia 0)) (took 0x0902 1 (cmd (hMedia 0)) s) (tk 0x0902 (cmd (hMedia 0))) ∧
    (s.encOf 0 (hMedia 0)).any (fun x => x.closing.isNone && x.frame.isSome) = true := by decide +kernel
theorem test_witness_LinkCommands :
    accB 0x0A01 0 (cmd 0 23) none chkPassRetrain && accB 0x0A02 0 (cmd 0 23) && accB 0x0A10 0 cmd && accB 0x0A11 0 cmd &&
    accB 0x0A12 0 (cmd 0 (pp [(0, 0, 1), (2, 0, 23), (2, 7, 1), (6, 0, 1)])) none chkValleyRouteSet &&
    accB 0x0A20 1 (cmd 0 (pp [(0, 0, 5), (4, 0, 2), (16, 0, storeBase)])) none (chkCollGroupCreate 1) && (rich.vMissing storeBase 4).isEmpty &&
    accB 0x0A21 1 (cmd (hGroup 0)) && (rich.groupOf 0 (hGroup 0)).isSome = true := by decide +kernel
theorem test_witness_SecurityAndFirmwareCommands :
    accB 0x0C01 1 cmd sl (chkSecAttest 1) && accB 0x0C02 0 (cmd 0 1) sl && accB 0x0C03 0 cmd sl && accB 0x0C04 0 cmd && accB 0x0C05 0 (cmd 0 1) sl &&
    accB 0x0D01 0 (cmd 0 (pp [(8, 0, 4096), (12, 0, 8192)])) sl && accB 0x0D02 0 cmd && accB 0x0D03 0 cmd && accB 0x0D04 0 cmd && accB 0x0D05 0 cmd &&
    (rich.sec.lifecycle != 4 && rich.sec.lifecycleReq.isNone && rich.fw.busy.isNone) && { rich.fw with busy := some ⟨0, 9⟩ }.busy.isSome = true := by decide +kernel
/-- Firmware slot 1 VERIFIED, or the running slot TRIAL, so that each FW command passes its own check. -/
def slots (l : List SlotState) : State := { up with fw := { up.fw with slots := l } }
theorem test_witness_SecurityAndFirmwareCommands_fw :
    (∀ op ∈ [0x0D02, 0x0D03], (let s := took op 0 cmd (slots [.active, .verified])
      fwCheck s (entryOf cmd op) (tk op cmd) = none ∧ (s.fwBegin ⟨0, 7⟩ (tk op cmd)).2 = none)) ∧
    (let s := took 0x0D04 0 cmd (slots [.trial, .verified])
     fwCheck s (entryOf cmd 0x0D04) (tk 0x0D04 cmd) = none ∧ (s.fwBegin ⟨0, 7⟩ (tk 0x0D04 cmd)).2 = none) ∧
    (let s := took 0x0D03 0 cmd (slots [.active, .pending])
     fwCheck s (entryOf cmd 0x0D03) (tk 0x0D03 cmd) = none ∧ (s.fwBegin ⟨0, 7⟩ (tk 0x0D03 cmd)).2 = some 0) ∧
    fwCheck rich (entryOf (cmd 0 (pp [(4, 0, 4096), (8, 0, 4096), (12, 0, 8192)])) 0x0D01) (tk 0x0D01 (cmd 0 (pp [(4, 0, 4096), (8, 0, 4096), (12, 0, 8192)])) sl) = none := by decide +kernel
theorem test_witness_TestAndRailCommands :
    accB 0x0E02 0 (cmd 0 (pp [(0, 0, 0x0B), (8, 0, 15)])) none chkTestRun && accB 0x0E03 0 cmd && accB 0x0E04 0 (cmd 0 7) && accB 0x0F01 1 (cmd 0 15) &&
    accB 0x0F02 0 (cmd 0 (pp [(0, 0, 5), (2, 0, 4), (3, 0, 4)])) none chkRailThreshSet && accB 0x0F03 1 cmd && accB 0x0F03 1 (cmd 0 (pp [(0, 0, 1), (1, 0, 7)])) &&
    (rich.basin 7).state != .failed && ((rich.appendDefect { typ := 0x08, source := 1, state := 1, temp := 40, loc := 7 }).rowEntry 0).isSome = true := by decide +kernel

/-! ### Witnesses: rules that hold whatever the row -/

theorem test_witness_HeldClockCountsAsFailure :
    (let s := railed 5 fun r => { r with cfg := { r.cfg with pmbAddr := 1 } }
     s.pmb = true ∧ (s.rail 5).cfg.pmbAddr ≠ 0 ∧ (s.rail 5).tried = false) ∧
    (let w : RegStatus := { channel := 5, high := false, low := false, current := false, temp := false, warn := false, acked := false }
     w.channel = 5 ∧ w.acked = false) ∧
    (let t := railed 5 fun r => { r with cfg := { r.cfg with pmbAddr := 1 }, tried := true }
     t.pmb = true ∧ (t.rail 5).tried = true ∧ (t.rail 5).cfg.pmbAddr ≠ 0 ∧ 5 < t.rails.length) := by decide +kernel
theorem test_witness_SilentPortIsReset :
    (up.core = true ∧ (up.port 23).lastFlit + 1000000 ≤ up.now ∧ (up.port 23).live = true) ∧
    { up with now := 999999 }.now < ({ up with now := 999999 }.port 23).lastFlit + 1000000 := by decide +kernel
theorem test_witness_WindowsStartAtMicroseconds :
    up.core = true ∧ up.ledger.window ≠ up.now / 1000 + 1 ∧
    (basined id).core = true ∧ (basined id).ledger.window = (basined id).now / 1000 + 1 := by decide +kernel
theorem test_witness_InterleaveIsOneToOne :
    ([7] ≠ [] ∧ [7].Nodup) ∧ deinterleave [0, 1, 2, 3, 4, 5, 6, 7] 7 8 = some 70 ∧ deinterleave [0, 2, 3] 3 5 = some 17 ∧
    (4095 < 4096 ∧ 0 < Config.allocatableFrames ∧ deinterleave up.mem.live 7 0 = some 7 ∧ 7 * 4096 + 4095 < up.mem.live.length * Config.basinBytes) := by decide +kernel
theorem test_witness_ScaledTokensNeverExceedT :
    (∀ x ∈ [(0, 100), (2, 50)], x.1 < 3) ∧ rankFactor 99 100 0 50 0 < 32768 ∧ rankFactor 120 100 30 0 1 < 32768 := by decide +kernel
theorem test_witness_SemaphoreServesInOrder :
    let w : Waiter := { owner := ⟨0, 0, 0⟩, value := 3 }
    let x : SyncObj := { index := 0, gen := 0, part := 0, typ := 1, count := 2, waiters := [w] }
    x.typ = 1 ∧ x.waiters ≠ [] ∧ (SyncObj.serveSem [w] x).1.waiters = [w] ∧ (x.signal ⟨0, 0, 0⟩ 1).2.1.length = 1 := by decide +kernel
theorem test_witness_ConfidentialRecordsTellNothing :
    let s := up.updPart 0 fun p => { p with cfg := { p.cfg with confidential := true } }
    (s.part 0).cfg.confidential = true := by decide +kernel
theorem test_witness_ConversionKeepsRepresentableValues :
    (∃ code, fmtOf code = some Fmt.fp32) ∧ 2 ^ 32 - 1 < 2 ^ (1 + Fmt.fp32.exp + Fmt.fp32.man) ∧ (Fmt.fp32.decode 0x7F800000).isNan = false ∧
    (Fmt.acc52.decode (2 ^ 51)).isNan = false := ⟨⟨1, rfl⟩, by decide +kernel, by decide +kernel, by decide +kernel⟩

/-! ### Worked examples of the spec -/

/-- Chapter 12, the address map: local address 0x00_4005_DA40 lies in B7, frame 0x800B, whose affine address is 0xF0_0800_BA40. -/
theorem test_interleave_example :
    interleave up.mem.live 0x4005D = (7, 0x800B) ∧ localKey up 0x4005DA40 = some 0xF00800BA40 := by decide +kernel

/-- Chapter 17, KV pools: the Harbor pool has 51 positions a page, its V region at 0x7F80, and 16 pages of metadata. -/
theorem test_kv_pool_example :
    let k : KvPool := { exist := true, page := 2, format := 0x04, heads := 4, dim := 160, pages := 131072 }
    k.row = 160 ∧ k.posBytes = 1280 ∧ k.perPage = 51 ∧ k.vOff 0 0 = 0x7F80 ∧ k.metaPages = 16 := by decide +kernel

/-- Chapter 9, tensor descriptors: the avatar latent, 40 × 40 × 32 BF16 in CB32. -/
theorem test_tensor_example :
    let t := tensorOf (BitVec.ofNat 512 (0x0150050040000000 + 0x03 * 2 ^ 128 + 32 * 2 ^ 160 + 40 * 2 ^ 192 + 40 * 2 ^ 224 + 2 ^ 256 +
      2 ^ 288 + 8 * 2 ^ 352 + 320 * 2 ^ 384 + 12800 * 2 ^ 416 + 12800 * 2 ^ 448))
    t.rank = 5 ∧ t.layout = 2 ∧ t.base = 0x50040000000 ∧ t.row = 64 ∧ t.span = 102400 := by decide +kernel

/-- Table 14-5: one MXFP4 block quantised with ROUND 0; 0.3 and 0.04 are given by their BF16 neighbours. -/
theorem test_mx_example :
    let n (d : Dy) : MxIn := { v := .num d, r := none, big := ⟨255, 120⟩ }
    let z (b : Bool) : MxIn := { v := .zero b, r := none, big := ⟨255, 120⟩ }
    (mxBlock 0x14 false ([n ⟨100, 0⟩, n ⟨-3, 0⟩, n ⟨154, -9⟩, n ⟨164, -12⟩, z true] ++ List.replicate 27 (z false))).1 = 0x83 ∧
    (mxBlock 0x14 false ([n ⟨100, 0⟩, n ⟨-3, 0⟩, n ⟨154, -9⟩, n ⟨164, -12⟩, z true] ++ List.replicate 27 (z false))).2.1 =
      [0x7, 0x8, 0, 0, 0x8] ++ List.replicate 27 0 := by decide +kernel

/-- Table 15-2, case 1: in one chunk ±2^40 lose the fourteen products of 2^−6 beside them. -/
theorem test_chunk_example_1 :
    chunkSum ([.num ⟨1, 40⟩, .num ⟨-1, 40⟩] ++ List.replicate 14 (.num ⟨1, -6⟩)) = .zero false := by decide +kernel
/-- Table 15-2, case 4: ±2^32 keep them. -/
theorem test_chunk_example_4 :
    Fmt.fp32.convert false none (chunkSum ([.num ⟨1, 32⟩, .num ⟨-1, 32⟩] ++ List.replicate 14 (.num ⟨1, -6⟩))) = 0x3E600000 := by
  decide +kernel
/-- Table 15-2, case 2: 2^40 + 0.21875 combines to 2^40, ACC52 word 0x0004_2700_0000_0000. -/
theorem test_combine_example_2 :
    Fmt.acc52.convert false none (combine (.num ⟨1, 40⟩) (.num ⟨7, -5⟩)) = 0x0004270000000000 ∧
    combine (combine (.num ⟨1, 40⟩) (.num ⟨7, -5⟩)) (.num ⟨-1, 40⟩) = .zero false := by decide +kernel
/-- Table 15-2, case 3: the other order keeps it, ACC52 word 0x0003_FCC0_0000_0000. -/
theorem test_combine_example_3 :
    Fmt.acc52.convert false none (combine (combine (.num ⟨1, 40⟩) (.num ⟨-1, 40⟩)) (.num ⟨7, -5⟩)) = 0x0003FCC000000000 := by
  decide +kernel

/-- Table 18-3: the stripes of layers A and B and the column tiles of layer C; in layer A an edge slice reads columns −1 to
64, of which padding supplies the first, and an inner one 66; slices of 4 of 12 columns fetch 5 and 6 alike. -/
theorem test_stripe_example :
    let ax (k p n : Nat) : Axis := { kind := .conv, k := k, d := 1, stride := 1, pad := p, len := n, outs := n, mode := 0 }
    let t (c : Nat) : Tensor := { base := 0, rank := 4, layout := 2, scale := 0, fmt := 0x03, dims := [32, 1, 1, c / 32], strides := [] }
    (columnSlices 16 1024).take 2 = [(0, 64), (64, 64)] ∧ rowBytes (t 128) 1 66 = 16896 ∧
    (planOf (ax 3 1 1024) (ax 3 1 1024) (t 128) 1 (64, 64)).rows = 44 ∧ (planOf (ax 3 1 4096) (ax 3 1 4096) (t 128) 1 (256, 256)).rows = 9 ∧
    (planOf (ax 7 3 4096) (ax 7 3 4096) (t 256) 1 (1024, 1024)).tile = 103 ∧
    (ax 3 1 1024).span 0 64 = (-1, 64) ∧ (ax 3 1 1024).width 64 64 = 66 ∧
    ((ax 3 1 12).cols 0 4).length = 5 ∧ ((ax 3 1 12).cols 4 4).length = 6 := by decide +kernel

/-- Table 16-4: 0.4223188 and 0.1553624 as BF16. -/
theorem test_bf16_example :
    convert 0x03 false none (.num (quoDy 60 ⟨4223188, 0⟩ ⟨10000000, 0⟩)) = 0x3ED8 ∧
    convert 0x03 false none (.num (quoDy 60 ⟨1553624, 0⟩ ⟨10000000, 0⟩)) = 0x3E1F := by decide +kernel

/-- Chapter 16, NORM: the segments of a Harbor LAYER row merge to (2,048, 0, 1,024), (3,072, 0, 1,280) and (3,328, 0, 1,344). -/
theorem test_norm_example :
    let a := mergeStats ⟨1024, ⟨1, -1⟩, ⟨256, 0⟩⟩ ⟨1024, ⟨-1, -1⟩, ⟨256, 0⟩⟩
    let b := mergeStats a ⟨1024, ⟨0, 0⟩, ⟨256, 0⟩⟩
    let c := mergeStats b ⟨256, ⟨0, 0⟩, ⟨64, 0⟩⟩
    (a.n, a.mean.m, a.m2.sub ⟨1024, 0⟩ |>.m) = (2048, 0, 0) ∧ (b.n, b.mean.m, b.m2.sub ⟨1280, 0⟩ |>.m) = (3072, 0, 0) ∧
    (c.n, c.mean.m, c.m2.sub ⟨1344, 0⟩ |>.m) = (3328, 0, 0) := by decide +kernel

/-- Chapter 13, scaling: at T = 962,496 with GOLD 600,000, SILVER 500,000 and BRONZE 400,000 the factors are 1, 23,756 and 0. -/
theorem test_scaling_example :
    rankFactor 962496 600000 500000 400000 0 = 32768 ∧ rankFactor 962496 600000 500000 400000 1 = 23756 ∧
    rankFactor 962496 600000 500000 400000 2 = 0 := by decide +kernel

/-- Chapter 20: the avatar context's demand is 94 and its phase 14,000,000 ns, so that one latch falls at 3,600,134,000,000 ns. -/
theorem test_media_example :
    encDemand 0 640 640 25 1 = 94 ∧
    (let x : Enc := { index := 56, part := 3, av1 := false, ten := false, split := 0, cores := [2], width := 640, height := 640,
                      fps := 25, bitrate := 1500, irPeriod := 10, resv := [], buffer := 0, openAt := 0 }
     x.phase = 14000000 ∧ x.latchAt 3600134000000 = some 90003 ∧ x.latchAt 3600134000001 = none) := by decide +kernel

/-- Chapter 23: the bytes of a LOG_RAIL_FAULT but for its stamp and CRC. -/
theorem test_rail_record_example :
    let b := LogRec.bytes { RailFault.record { channel := 5, cause := 0, level := 3, reading := 0x228, count := 2, stamp := 0 } with boot := 17 }
    b.take 8 = [0x05, 0x08, 0x01, 0x02, 0, 0, 0, 0] ∧ (b.drop 16).take 12 = [0x05, 0x00, 0x03, 0xFF, 0x28, 0x02, 0, 0, 0x11, 0, 0, 0] := by
  decide +kernel

/-- Chapter 24: CLK_PLAIN_FREQ2 reads 0x0868_6868 with P2 in RUN at 2.10 GHz; the top nibble is the state. -/
theorem test_plain_freq_example :
    let s := { up with plains := List.replicate 16 { state := .run, locked := true, current := 0x68, target := 0x68, limit := 0x68 } }
    s.reg 0 0x70108 = 0x08686868 := by decide +kernel

/-- Chapter 5: with physical core 3 of P11 defective the map is 0, 1, 2, 4; with core 1 too it is 0, 2, 4 and TC3 is absent. -/
theorem test_core_map_example :
    let a : Defect := { typ := 0x01, source := 1, state := 1, temp := 40, loc := 0x3B }
    let b : Defect := { typ := 0x01, source := 1, state := 0, temp := 40, loc := 0x1B }
    (rich.appendDefect a).coresOf 11 = [some 0, some 1, some 2, some 4] ∧
    ((rich.appendDefect a).appendDefect b).coresOf 11 = [some 0, some 2, some 4, none] := by decide +kernel

/-- Chapter 3: bytes 2 to 6 of the entry of VDD_CORE_Q1 spell SETPOINT 300, offsets of 20 and FILTER 19. -/
theorem test_rail_entry_example :
    let c := railEntry (fun i => [0x07, 0, 0x2C, 0x01, 0x14, 0x14, 0x13, 0, 0, 0, 0, 0].getD i 0) 0
    c.setpoint = 300 ∧ c.uv = 20 ∧ c.ov = 20 ∧ c.filter = 19 := by decide +kernel

/-- Table 24-3's worked example: an SQ_BASE of 0x0000_0012_3456_0000 and a size of 8 from three register writes on VF 4. -/
theorem test_mailbox_setup_example :
    let b : Mailbox := (((({} : Mailbox).regWrite 0x10 0x34560000).regWrite 0x14 0x12).regWrite 0x18 8)
    b.sqBase = 0x0000001234560000 ∧ b.sqSize = 8 := by decide +kernel

end Sys2Proof.Tests
end

section
/-! How a mailbox holds a request ID (R146 to R148): what the engine's operations do to the mailbox they act on, and the
statements of chapter 07 about retries. -/
namespace Sys2Proof.Machine

/-! ### The mailbox after an update -/

@[simp] theorem updAt_length {α : Type} (l : List α) (i : Nat) (f : α → α) : (updAt l i f).length = l.length := by
  induction l generalizing i with
  | nil => rfl
  | cons x r ih =>
    cases i with
    | zero => rfl
    | succ n => simp [updAt, ih]

@[simp] theorem State.updMb_mbx_length (s : State) (m : Nat) (f : Mailbox → Mailbox) :
    (s.updMb m f).mbx.length = s.mbx.length := updAt_length ..

theorem State.updMb_mb {s : State} {m : Nat} (h : m < s.mbx.length) (f : Mailbox → Mailbox) :
    (s.updMb m f).mb m = f (s.mb m) := updAt_getD _ _ _ _ h

@[simp] theorem State.writeCq_mbx_length (s : State) (m : Nat) (c : Completion) (irqOff : Bool) :
    (s.writeCq m c irqOff).mbx.length = s.mbx.length := by
  cases irqOff <;> simp [State.writeCq]

theorem State.writeCq_mb {s : State} {m : Nat} (h : m < s.mbx.length) (c : Completion) (irqOff : Bool) :
    (s.writeCq m c irqOff).mb m = (s.mb m).writeCq c := by
  cases irqOff <;> simp [State.writeCq, State.updMb_mb h]

/-- The DUP copies of a completion, as one mailbox sees them (R147). -/
def Mailbox.dups (b : Mailbox) (c : Completion) : Nat → Mailbox
  | 0 => b
  | n + 1 => (b.writeCq { c with dup := true }).dups c n

@[simp] theorem State.dups_mbx_length (s : State) (m : Nat) (c : Completion) (irqOff : Bool) (n : Nat) :
    (s.dups m c irqOff n).mbx.length = s.mbx.length := by
  induction n generalizing s with
  | zero => rfl
  | succ n ih => simp [State.dups, ih]

theorem State.dups_mb {s : State} {m : Nat} (h : m < s.mbx.length) (c : Completion) (irqOff : Bool) (n : Nat) :
    (s.dups m c irqOff n).mb m = (s.mb m).dups c n := by
  induction n generalizing s with
  | zero => rfl
  | succ n ih => simp [State.dups, Mailbox.dups, ih, h, State.writeCq_mb h]

/-! ### What handing back a CMD slot leaves unchanged -/

@[simp] theorem State.mirrorFlag_mbx (s : State) (f w i : Nat) : (s.mirrorFlag f w i).mbx = s.mbx := by
  dsimp only [State.mirrorFlag]; split <;> rfl

@[simp] theorem State.mirrorFlag_cp (s : State) (f w i : Nat) : (s.mirrorFlag f w i).cp = s.cp := by
  dsimp only [State.mirrorFlag]; split <;> rfl

@[simp] theorem State.setOwner_mbx (s : State) (f w i owner : Nat) : (s.setOwner f w i owner).mbx = s.mbx := by
  simp [State.setOwner, State.updSlot]

@[simp] theorem State.setOwner_cp (s : State) (f w i owner : Nat) : (s.setOwner f w i owner).cp = s.cp := by
  simp [State.setOwner, State.updSlot]

@[simp] theorem State.handBack_mbx (s : State) (f w i : Nat) : (s.handBack f w i).mbx = s.mbx := by
  dsimp only [State.handBack]; split <;> split <;> simp [State.mirrorPut]

@[simp] theorem State.handBack_cp (s : State) (f w i : Nat) : (s.handBack f w i).cp = s.cp := by
  dsimp only [State.handBack]; split <;> split <;> simp [State.mirrorPut]

/-! ### The parts of a mailbox -/

section
variable (b : Mailbox) (c : Completion) (e : Block)
@[simp] theorem Mailbox.writeCq_taken : (b.writeCq c).taken = b.taken := rfl
@[simp] theorem Mailbox.writeCq_window : (b.writeCq c).window = b.window := rfl
@[simp] theorem Mailbox.record_taken : (b.record e c).taken = b.taken := by unfold Mailbox.record; split <;> rfl
@[simp] theorem Mailbox.settle_taken : b.settle.taken = b.taken := by unfold Mailbox.settle; split <;> rfl
@[simp] theorem Mailbox.settle_cq : b.settle.cq = b.cq := by unfold Mailbox.settle; split <;> rfl
@[simp] theorem Mailbox.settle_window : b.settle.window = b.window := by unfold Mailbox.settle; split <;> rfl
@[simp] theorem Mailbox.record_cq : (b.record e c).cq = b.cq := by unfold Mailbox.record; split <;> rfl

@[simp] theorem Mailbox.dups_taken (n : Nat) : (b.dups c n).taken = b.taken := by
  induction n generalizing b with
  | zero => rfl
  | succ n ih => exact ih _

@[simp] theorem Mailbox.dups_window (n : Nat) : (b.dups c n).window = b.window := by
  induction n generalizing b with
  | zero => rfl
  | succ n ih => exact ih _
end

/-- A completion is appended to the ring, its PHASE set by the pass (R142). -/
theorem Mailbox.writeCq_cq (b : Mailbox) (c : Completion) : ∃ p, (b.writeCq c).cq = b.cq ++ [{ c with phase := p }] :=
  ⟨_, rfl⟩

/-- The completion just recorded is the newest of the window: at most older ones have left it (R146). -/
theorem Mailbox.record_window_reverse {c : Completion} (h : recorded c.status = true) (b : Mailbox) (e : Block) :
    ∃ l, (b.record e c).window.reverse = { entry := e, done := c } :: l := by
  have hn : b.window.length + 1 - 1024 ≤ b.window.length := by omega
  refine ⟨(b.window.drop (b.window.length + 1 - 1024)).reverse, ?_⟩
  rw [Mailbox.record, if_pos h]
  simp only [List.drop_append_of_le_length hn, List.reverse_append, List.reverse_singleton, List.singleton_append]

theorem Mailbox.record_of_not_recorded {c : Completion} (h : recorded c.status = false) (b : Mailbox) (e : Block) :
    b.record e c = b := by
  simp [Mailbox.record, h]

/-! ### The request-ID check -/

theorem recorded_iff (status : Nat) : recorded status = true ↔ status / 256 ≠ 1 ∧ status ≠ ST.idConflict := by
  simp [recorded]

theorem sameEntry_self (e : Block) : sameEntry e e = true := by simp [sameEntry]

theorem Mailbox.eId_of_find {b : Mailbox} {id : BitVec 32} {t : Taken} (h : b.find id = some t) : eId t.entry = id := by
  simpa using List.find?_some h

/-- A change of the taken commands that leaves their entries alone leaves them to be found under their IDs. -/
theorem Mailbox.find_map_taken (b : Mailbox) {g : Taken → Taken} (hg : ∀ t, (g t).entry = t.entry) (id : BitVec 32) :
    { b with taken := b.taken.map g }.find id = (b.find id).map g := by
  simp [Mailbox.find, List.find?_map, hg]

/-- An ID that is held decides the check by the content of its entry (R147). -/
theorem Mailbox.idCheck_of_held {b : Mailbox} {e : Block} {t : Taken} (h : b.find (eId e) = some t) :
    b.idCheck e = if sameEntry t.entry e then .retryHeld else .conflict := by
  simp [Mailbox.idCheck, h]

theorem Mailbox.find_of_idCheck_new {b : Mailbox} {e : Block} (h : b.idCheck e = .new) : b.find (eId e) = none := by
  cases hf : b.find (eId e) with
  | none => rfl
  | some t => rw [Mailbox.idCheck_of_held hf] at h; split at h <;> cases h

/-- A retry of the command of the window's newest completion gets that completion (R146). -/
theorem Mailbox.idCheck_of_newest {b : Mailbox} {e : Block} {c : Completion} {l : List Recorded}
    (hf : b.find (eId e) = none) (hw : b.window.reverse = { entry := e, done := c } :: l) : b.idCheck e = .retryDone c := by
  simp [Mailbox.idCheck, hf, hw, sameEntry_self]

theorem Mailbox.idCheck_of_free {b : Mailbox} {e : Block} (hf : b.find (eId e) = none)
    (hw : b.window.find? (fun w => eId w.entry == eId e) = none) : b.idCheck e = .new := by
  have hr : b.window.reverse.find? (fun w => eId w.entry == eId e) = none := by simpa using hw
  simp [Mailbox.idCheck, hf, hr]

/-! ### Taking an entry -/

section
variable {s : State} {m : Nat} {e : Block} {slot : Option (Nat × Nat)}

@[simp] theorem State.take_mbx_length : (s.take m e slot).mbx.length = s.mbx.length := by
  unfold State.take; split <;> simp

/-- A new entry is held under its ID from now on (R147). -/
theorem State.take_new_find (hm : m < s.mbx.length) (h : (s.mb m).idCheck e = .new) :
    ((s.take m e slot).mb m).find (eId e) = some { entry := e, stamp := s.now, slot := slot } := by
  have hf : (s.mb m).taken.find? (fun t => eId t.entry == eId e) = none := Mailbox.find_of_idCheck_new h
  simp [State.take, h, State.updMb_mb hm, Mailbox.find, List.find?_append, hf]

theorem State.take_new_cq (hm : m < s.mbx.length) (h : (s.mb m).idCheck e = .new) :
    ((s.take m e slot).mb m).cq = (s.mb m).cq := by
  simp [State.take, h, State.updMb_mb hm]

/-- A held retry is counted on its original. -/
theorem State.take_retryHeld_find {t : Taken} (hm : m < s.mbx.length) (h : (s.mb m).idCheck e = .retryHeld)
    (ht : (s.mb m).find (eId e) = some t) :
    ((s.take m e slot).mb m).find (eId e) = some { t with retries := t.retries + 1 } := by
  have hg : ∀ x : Taken, (if eId x.entry == eId e then { x with retries := x.retries + 1 } else x).entry = x.entry := by
    intro x; split <;> rfl
  have hid : eId t.entry = eId e := Mailbox.eId_of_find ht
  simp only [State.take, h, State.updMb_mb hm]
  rw [Mailbox.find_map_taken _ hg, ht]
  simp [hid]

theorem State.take_retryHeld_cq (hm : m < s.mbx.length) (h : (s.mb m).idCheck e = .retryHeld) :
    ((s.take m e slot).mb m).cq = (s.mb m).cq := by
  simp [State.take, h, State.updMb_mb hm]

theorem State.take_retryDone {c : Completion} (h : (s.mb m).idCheck e = .retryDone c) :
    s.take m e slot = s.writeCq m { c with dup := true } (eIrqOff e) := by
  simp [State.take, h]

/-- An entry with an ID in use for another is answered at once (R146, R147). -/
theorem State.take_conflict_cq (hm : m < s.mbx.length) (h : (s.mb m).idCheck e = .conflict) :
    ∃ c, ((s.take m e slot).mb m).cq = (s.mb m).cq ++ [c] ∧ c.reqId = eId e ∧ c.status = ST.idConflict := by
  have ht : s.take m e slot = s.writeCq m { reqId := eId e, status := ST.idConflict } (eIrqOff e) := by simp [State.take, h]
  obtain ⟨p, hcq⟩ := (s.mb m).writeCq_cq { reqId := eId e, status := ST.idConflict }
  exact ⟨_, by rw [ht, State.writeCq_mb hm, hcq], rfl, rfl⟩
end

/-! ### Completing a command -/

/-- An ID released: no command is taken under it any more. -/
def Mailbox.release (b : Mailbox) (id : BitVec 32) : Mailbox :=
  { b with taken := b.taken.filter fun x => eId x.entry != id }

/-- A completion as its mailbox sees it: the ID is released, the completion written and recorded for its entry, and `n` copies
with DUP are written behind it (R147, R148). -/
def Mailbox.answer (b : Mailbox) (e : Block) (c : Completion) (n : Nat) : Mailbox :=
  ((((b.release c.reqId).writeCq c).record e c).dups c n).settle

section
variable (b : Mailbox) {e : Block} {c : Completion}

theorem Mailbox.release_find (id : BitVec 32) : (b.release id).find id = none := by
  simp [Mailbox.find, Mailbox.release]

theorem Mailbox.answer_find (n : Nat) : (b.answer e c n).find c.reqId = none := by
  have h : (b.answer e c n).taken = (b.release c.reqId).taken := by simp [Mailbox.answer]
  rw [Mailbox.find, h]
  exact b.release_find c.reqId

theorem Mailbox.answer_window (n : Nat) :
    (b.answer e c n).window = (((b.release c.reqId).writeCq c).record e c).window := by
  simp [Mailbox.answer]

/-- With one retry held, the copy with DUP stands directly behind the original's completion (R147). -/
theorem Mailbox.answer_cq_of_one_retry :
    ∃ p q, (b.answer e c 1).cq = b.cq ++ [{ c with phase := p }, { c with dup := true, phase := q }] := by
  obtain ⟨p, hp⟩ := (b.release c.reqId).writeCq_cq c
  obtain ⟨q, hq⟩ := (((b.release c.reqId).writeCq c).record e c).writeCq_cq { c with dup := true }
  refine ⟨p, q, ?_⟩
  rw [Mailbox.answer, Mailbox.settle_cq, Mailbox.dups, Mailbox.dups, hq, Mailbox.record_cq, hp]
  simp [Mailbox.release]

/-- A retry of a command whose completion is recorded gets that completion (R148). -/
theorem Mailbox.answer_idCheck_of_recorded (hid : c.reqId = eId e) (h : recorded c.status = true) (n : Nat) :
    (b.answer e c n).idCheck e = .retryDone c := by
  obtain ⟨l, hl⟩ := Mailbox.record_window_reverse h ((b.release c.reqId).writeCq c) e
  exact Mailbox.idCheck_of_newest (by rw [← hid, b.answer_find]) (by rw [b.answer_window, hl])

/-- After a completion that is not recorded the ID is free (R148). -/
theorem Mailbox.answer_idCheck_of_not_recorded (hid : c.reqId = eId e) (h : recorded c.status = false)
    (hw : b.window.find? (fun w => eId w.entry == eId e) = none) (n : Nat) : (b.answer e c n).idCheck e = .new := by
  refine Mailbox.idCheck_of_free (by rw [← hid, b.answer_find]) ?_
  rw [b.answer_window, Mailbox.record_of_not_recorded h]
  exact hw
end

/-- The completion of a taken command, before its PHASE is set (Table 7-4). -/
def State.completionOf (s : State) (r : Req) (t : Taken) (status result : Nat) : Completion :=
  { reqId := r.id, status := status, result := result % 2 ^ 64, cpr := t.cpr || !s.cpUp }

section
variable {s : State} {r : Req} {t : Taken}

/-- A mailbox that is not there has taken nothing. -/
theorem State.lt_of_taken (h : s.taken r = some t) : r.m < s.mbx.length := by
  by_contra hm
  have hmb : s.mb r.m = {} := List.getD_eq_default _ _ (Nat.le_of_not_lt hm)
  simp [State.taken, hmb, Mailbox.find] at h

theorem State.writeDone_mb (hm : r.m < s.mbx.length) (t : Taken) (status result : Nat) :
    (s.writeDone r t status result).mb r.m =
      (s.mb r.m).answer t.entry (s.completionOf r t status result) t.retries := by
  unfold State.writeDone
  extract_lets s₁ c irq s₂ s₃ s₄ s₅
  have hs₁ : s₁.mbx = s.mbx ∧ s₁.cp = s.cp := by
    dsimp only [s₁]; split
    · split <;> simp
    · simp
  obtain ⟨hmbx, hcp⟩ := hs₁
  have hm₁ : r.m < s₁.mbx.length := by rwa [hmbx]
  have hmb₁ : s₁.mb r.m = s.mb r.m := by simp [State.mb, hmbx]
  have hc : c = s.completionOf r t status result := by simp [c, State.completionOf, State.cpUp, hcp]
  have hid : r.id = c.reqId := rfl
  rw [← hc, Mailbox.answer, Mailbox.release, ← hid, ← hmb₁]
  simp [s₅, s₄, s₃, s₂, State.updMb_mb, State.dups_mb, State.writeCq_mb, hm₁]

/-- A taken command that no CP exception holds back is answered in its mailbox. -/
theorem State.complete_mb (h : s.taken r = some t) (hd : t.deferred = false) (status result : Nat) :
    (s.complete r status result).mb r.m =
      (s.mb r.m).answer t.entry (s.completionOf r t status result) t.retries := by
  have hc : s.complete r status result = s.writeDone r t status result := by simp [State.complete, h, hd]
  rw [hc, State.writeDone_mb (State.lt_of_taken h)]

theorem State.complete_cq_of_one_retry (h : s.taken r = some t) (hd : t.deferred = false) (hr : t.retries = 1)
    (status result : Nat) :
    ∃ p q, ((s.complete r status result).mb r.m).cq = (s.mb r.m).cq ++
      [{ s.completionOf r t status result with phase := p }, { s.completionOf r t status result with dup := true, phase := q }] := by
  rw [State.complete_mb h hd, hr]
  exact (s.mb r.m).answer_cq_of_one_retry
end

/-! ### The statements -/

/-- Settles O12: the entry taken stands in the journal under its ID, so the check of another entry of that ID turns on its
content, and a held retry is counted on the original, whose completion then writes one copy. -/
theorem heldIdAndItsRetries : Obligations.HeldIdAndItsRetries := by
  intro s m e e' slot slot' hm hnew hid t
  have hmt : m < t.mbx.length := by simpa [t] using hm
  have hfind : (t.mb m).find (eId e') = some { entry := e, stamp := s.now, slot := slot } := by
    rw [hid]; exact State.take_new_find hm hnew
  have hcheck := Mailbox.idCheck_of_held hfind
  have hcq : (t.mb m).cq = (s.mb m).cq := State.take_new_cq hm hnew
  refine ⟨fun hsame => ?_, fun hdiff => ?_⟩
  · have hheld : (t.mb m).idCheck e' = .retryHeld := by rw [hcheck, if_pos hsame]
    have hcq' : ((t.take m e' slot').mb m).cq = (s.mb m).cq := (State.take_retryHeld_cq hmt hheld).trans hcq
    refine ⟨hheld, hcq', fun status result => ?_⟩
    have htaken : (t.take m e' slot').taken ⟨m, eId e⟩ =
        some { entry := e, stamp := s.now, slot := slot, retries := 1 } := by
      rw [← hid]; exact State.take_retryHeld_find hmt hheld hfind
    obtain ⟨p, q, hdone⟩ := State.complete_cq_of_one_retry htaken rfl rfl status result
    rw [← hcq']
    exact ⟨_, _, hdone, rfl, rfl, rfl, rfl, rfl, rfl, rfl, rfl⟩
  · have hconf : (t.mb m).idCheck e' = .conflict := by rw [hcheck, if_neg (by simp [hdiff])]
    refine ⟨hconf, ?_⟩
    rw [← hcq, ← hid]
    exact State.take_conflict_cq hmt hconf

/-- Settles O13: a completion releases its ID, and it is the newest of the request-ID window where its status is recorded,
while it leaves the window alone where it is not. -/
theorem completedCommandIsRemembered : Obligations.CompletedCommandIsRemembered := by
  refine ⟨⟨by decide, recorded_iff⟩, fun s r t status result ht hd => ?_⟩
  intro u
  have hid : r.id = eId t.entry := (Mailbox.eId_of_find ht).symm
  have hmb : u.mb r.m = (s.mb r.m).answer t.entry (s.completionOf r t status result) t.retries :=
    State.complete_mb ht hd status result
  refine ⟨fun hrec => ?_, fun hrec hw => ?_⟩
  · have hcheck : (u.mb r.m).idCheck t.entry = .retryDone (s.completionOf r t status result) := by
      rw [hmb]; exact Mailbox.answer_idCheck_of_recorded _ hid hrec _
    exact ⟨_, hcheck, rfl, rfl, rfl, fun slot => State.take_retryDone hcheck⟩
  · rw [hmb]
    exact Mailbox.answer_idCheck_of_not_recorded _ hid hrec (hid ▸ hw) _

end Sys2Proof.Machine
end

section
/-! What a PORT reset does to its port (R98, R372): once it has queued the port's retrain, none of
its other steps touches the stamp. -/
namespace Sys2Proof.Machine

/-! ### What leaves every port as it is -/

/-- Steps that each leave the ports as they are leave them so together. -/
theorem foldl_ports {α : Type} {f : State → α → State} (h : ∀ s a, (f s a).ports = s.ports) (l : List α) (s : State) :
    (l.foldl f s).ports = s.ports :=
  List.foldlRecOn (motive := fun t => t.ports = s.ports) l f rfl fun t ht a _ => (h t a).trans ht

section
variable (s : State)

/-! The logs and the event rings. -/

@[simp] theorem State.crash_ports (r : LogRec) : (s.crash r).ports = s.ports := by
  dsimp only [State.crash]; split <;> rfl

@[simp] theorem State.log_ports (r : LogRec) : (s.log r).ports = s.ports := by
  unfold State.log
  split
  · rfl
  · dsimp only; split <;> simp

@[simp] theorem State.signalEq_ports (m : Nat) (b : Mailbox) : (s.signalEq m b).ports = s.ports :=
  foldl_ports (fun _ _ => State.updFn_ports ..) _ s

@[simp] theorem State.post_ports (m : Nat) (e : Event) : (s.post m e).ports = s.ports := by simp [State.post]

@[simp] theorem State.emit_ports (rings : List Nat) (code cls source payload : Nat) (final : Bool) (part : Option Nat)
    (hide : Bool) : (s.emit rings code cls source payload final part hide).ports = s.ports := by
  unfold State.emit
  rw [foldl_ports fun _ _ => State.post_ports ..]
  split <;> simp

/-! Memory. -/

/-- A byte stored is put under some key, or nothing happens. The definition is opened at the constant and for any `P`: compared
with its body, the kernel would evaluate `localKey`, whose address bounds it cannot count through. -/
theorem State.wr8_cases {P : State → Prop} {a : Nat} {v : Byte} (hs : P s)
    (hput : ∀ k, P { s with mem := s.mem.put k v }) : P (s.wr8 a v) := by
  generalize hf : @State.wr8 = f
  delta State.wr8 at hf
  subst hf
  beta_reduce
  cases localKey s a with
  | none => exact hs
  | some k =>
    dsimp only
    split
    · exact hs
    · exact hput k

@[simp] theorem State.wr8_ports (a : Nat) (v : Byte) : (s.wr8 a v).ports = s.ports :=
  s.wr8_cases (P := fun t => t.ports = s.ports) rfl fun _ => rfl

@[simp] theorem State.wr_ports (a : Nat) (l : List Byte) : (s.wr a l).ports = s.ports := by
  induction l generalizing s a with
  | nil => rfl
  | cons v r ih => simp [State.wr, ih]

@[simp] theorem State.unpoison_ports (a n : Nat) : (s.unpoison a n).ports = s.ports := by
  refine foldl_ports (fun s i => ?_) _ s
  dsimp only
  split
  · split <;> rfl
  · rfl

@[simp] theorem State.store_ports (a : Nat) (l : List Byte) : (s.store a l).ports = s.ports := by simp [State.store]

@[simp] theorem State.cutWrite_ports (p : Nat) : (s.cutWrite p).ports = s.ports := by
  unfold State.cutWrite
  extract_lets l t
  split
  · extract_lets h k
    split
    · simp [State.free]
    · rfl
  · rfl

/-! Masters, routes and the ledger. -/

@[simp] theorem State.resetMaster_ports (kind unit : Nat) : (s.resetMaster kind unit).ports = s.ports := rfl
@[simp] theorem State.noteRoutes_ports : s.noteRoutes.ports = s.ports := rfl
@[simp] theorem State.noteD_ports : s.noteD.ports = s.ports := rfl
@[simp] theorem State.settleResvs_ports : s.settleResvs.ports = s.ports := rfl
@[simp] theorem State.grant_ports : s.grant.ports = s.ports := rfl
@[simp] theorem State.updResource_ports (kind i dir : Nat) (f : Resource → Resource) :
    (s.updResource kind i dir f).ports = s.ports := rfl

@[simp] theorem State.ledgerEvent_ports (code kind i dir d r : Nat) : (s.ledgerEvent code kind i dir d r).ports = s.ports :=
  State.emit_ports ..

@[simp] theorem State.degraded_ports (r : Resv) (dir factor : Nat) : (s.degraded r dir factor).ports = s.ports := by
  simp [State.degraded]

@[simp] theorem State.setFactors_ports (kind i dir : Nat) (f : Nat → Nat) (tell : Bool) :
    (s.setFactors kind i dir f tell).ports = s.ports := by
  refine foldl_ports (fun s r => ?_) _ s
  dsimp only
  split
  · rfl
  · split <;> simp

@[simp] theorem State.resourceWindow_ports (x : Resource) : (s.resourceWindow x).ports = s.ports := by
  unfold State.resourceWindow
  extract_lets l sum R D was s₁ overc s₂ cap s₃
  have h₁ : s₁.ports = s.ports := by dsimp only [s₁]; split <;> simp
  have h₃ : s₃.ports = s₂.ports := by dsimp only [s₃]; split <;> simp
  simp [h₃, s₂, h₁]

@[simp] theorem State.beginWindow_ports : s.beginWindow.ports = s.ports := by
  simp [State.beginWindow, foldl_ports State.resourceWindow_ports]

@[simp] theorem State.windowDue_ports : s.windowDue.ports = s.ports := by
  unfold State.windowDue; split <;> simp

@[simp] theorem State.refreshD_ports : s.refreshD.ports = s.ports := by simp [State.refreshD]
end

/-! ### The stamp of a queued retrain -/

theorem State.port_eq_of_ports {s t : State} (h : t.ports = s.ports) (p : Nat) : t.port p = s.port p := by
  simp [State.port, h]

/-- A port that is not there is DISABLED. -/
theorem State.lt_of_port_live {s : State} {p : Nat} (h : (s.port p).live = true) : p < s.ports.length := by
  by_contra hp
  have hx : s.port p = {} := List.getD_eq_default _ _ (Nat.le_of_not_lt hp)
  simp [hx, Port.live] at h

theorem State.updPort_port {s : State} {p : Nat} (h : p < s.ports.length) (f : Port → Port) :
    (s.updPort p f).port p = f (s.port p) := updAt_getD _ _ _ _ h

/-- A change that keeps the stamp of a queued retrain keeps it at every port, there or not. -/
theorem State.updPort_queued (s : State) {f : Port → Port} (hf : ∀ x, (f x).queued = x.queued) (q p : Nat) :
    ((s.updPort q f).port p).queued = (s.port p).queued := by
  by_cases hqp : q = p
  · subst hqp
    by_cases hq : q < s.ports.length
    · rw [State.updPort_port hq, hf]
    · have hle : s.ports.length ≤ q := Nat.le_of_not_lt hq
      simp [State.port, State.updPort, hle]
  · exact congrArg Port.queued (updAt_getD_ne _ _ _ _ _ hqp)

@[simp] theorem State.sendPort_queued (s : State) (q : Nat) (g : Msg) (p : Nat) :
    ((s.sendPort q g).port p).queued = (s.port p).queued :=
  State.updPort_queued s (fun _ => by rfl) q p

@[simp] theorem State.route1_queued (s : State) (g : Msg) (p : Nat) :
    ((s.route1 g).1.port p).queued = (s.port p).queued := by
  unfold State.route1
  split
  · rfl
  · split
    · rfl
    · dsimp only; split <;> simp

/-- A port going down sends its messages on other ways and cuts its link; no port's retrain is queued or dropped by it. -/
@[simp] theorem State.portDown_queued (s : State) (q p : Nat) :
    ((s.portDown q).port p).queued = (s.port p).queued := by
  unfold State.portDown
  extract_lets x l t
  have ht : (t.port p).queued = (s.port p).queued := by
    rw [State.updPort_queued _ (f := Port.cutLink) (fun _ => rfl), State.port_eq_of_ports (s.cutWrite_ports q)]
  exact List.foldlRecOn (motive := fun u : State => (u.port p).queued = (s.port p).queued) l _ ht
    fun u hu _ _ => (State.route1_queued u _ p).trans hu

theorem Port.live_of_queued {x : Port} {n : Nat} (h : x.queued = some n) : x.live = false := by simp [Port.live, h]

/-- A PORT reset of a port that carries traffic queues its retrain at this stamp (R98). -/
theorem State.portReset_queued {s : State} {p : Nat} (h : (s.port p).live = true) :
    ((s.portReset p).port p).queued = some s.now := by
  have hp : p < (s.resetMaster 2 p).ports.length := State.lt_of_port_live h
  have hports (u : State) : u.noteRoutes.refreshD.port p = u.port p := State.port_eq_of_ports (by simp) p
  simp [State.portReset, h, hports, State.updPort_port hp]

/-! ### The statement -/

/-- PORT_IDLE_TIMEOUT resets the port where the bound of R372 is reached, and does nothing else. -/
theorem exec_portIdleTimeout {s : State} (h : s.core = true) (p : Nat) :
    exec (.portIdleTimeout p) s =
      .next (finish s (if (s.port p).lastFlit + 1000000 ≤ s.now then s.portReset p else s)) := by
  have harm : exec (.portIdleTimeout p) s = execPortIdleTimeout p s := rfl
  rw [harm, execPortIdleTimeout, run, if_pos h]

/-- Settles O54: the row resets the port exactly at the bound, and the reset leaves the port's retrain queued, so that the
port is not live. -/
theorem silentPortIsReset : Obligations.SilentPortIsReset := by
  intro s p hcore
  rw [exec_portIdleTimeout hcore]
  refine ⟨fun hsilent => ⟨by rw [if_pos hsilent], fun hlive => ?_⟩, fun hheard => by rw [if_neg (Nat.not_le.2 hheard)]⟩
  have hqueued := State.portReset_queued hlive
  exact ⟨Port.live_of_queued hqueued, hqueued⟩

end Sys2Proof.Machine
end

section
/-! A PMBus transaction that failed (R53, R466): it is counted on its rail, and the event that a second failure raises leaves
every rail as it is. -/
namespace Sys2Proof.Machine

/-! ### What leaves the rails as they are -/

section
variable (s : State)

@[simp] theorem State.crash_rails (r : LogRec) : (s.crash r).rails = s.rails := by
  dsimp only [State.crash]; split <;> rfl

@[simp] theorem State.log_rails (r : LogRec) : (s.log r).rails = s.rails := by
  unfold State.log
  split
  · rfl
  · dsimp only; split <;> simp

@[simp] theorem State.signalEq_rails (m : Nat) (b : Mailbox) : (s.signalEq m b).rails = s.rails :=
  List.foldlRecOn (motive := fun t : State => t.rails = s.rails) _ _ rfl
    fun t ht _ _ => (State.updFn_rails t ..).trans ht

@[simp] theorem State.post_rails (m : Nat) (e : Event) : (s.post m e).rails = s.rails := by simp [State.post]

/-- Its record and its postings on the rings are all that an event writes (R444, R445). -/
@[simp] theorem State.emit_rails (rings : List Nat) (code cls source payload : Nat) (final : Bool) (part : Option Nat)
    (hide : Bool) : (s.emit rings code cls source payload final part hide).rails = s.rails := by
  unfold State.emit
  refine List.foldlRecOn (motive := fun t : State => t.rails = s.rails) _ _ ?_ fun t ht _ _ => (t.post_rails ..).trans ht
  split <;> simp

@[simp] theorem State.alertBit_rails (i : Nat) : (s.alertBit i).rails = s.rails := rfl

@[simp] theorem finish_rail (t : State) (ch : Nat) : (finish s t).rail ch = t.rail ch := rfl
end

/-! ### A failed transaction -/

section
variable {s : State} {ch : Nat}

theorem State.updRail_rail (h : ch < s.rails.length) (f : Rail → Rail) : (s.updRail ch f).rail ch = f (s.rail ch) :=
  updAt_getD _ _ _ _ h

theorem State.pmbFail_of_first (h : (s.rail ch).tried = false) :
    s.pmbFail ch = s.updRail ch fun r => { r with tried := true } := by simp [State.pmbFail, h]

theorem State.pmbFail_of_second (h : (s.rail ch).tried = true) : s.pmbFail ch = s.pmbStale ch := by simp [State.pmbFail, h]

/-- The telemetry is marked before EV_PMBUS_FAULT is raised, and the event and its alert bit leave the mark (R53). -/
theorem State.pmbStale_stale (h : ch < s.rails.length) : ((s.pmbStale ch).rail ch).stale = true := by
  have hrails : (s.pmbStale ch).rails = (s.updRail ch fun r => { r with tried := false, stale := true }).rails := by
    simp [State.pmbStale]
  have hrail : (s.pmbStale ch).rail ch = (s.updRail ch fun r => { r with tried := false, stale := true }).rail ch :=
    congrArg (·.getD ch {}) hrails
  rw [hrail, State.updRail_rail h]

/-- A status read that is not acknowledged is a failed transaction of its rail (R53). -/
theorem State.statusWord_of_unacked {w : RegStatus} (hch : w.channel < 16) (hack : w.acked = false)
    (hreg : (s.rail w.channel).cfg.pmbAddr ≠ 0) : s.statusWord w = s.pmbFail w.channel := by
  simp [State.statusWord, hreg, hch, hack]

/-- PMBUS_SCL_TIMEOUT of a rail with a regulator is a failed transaction of it (R466). -/
theorem exec_pmbusSclTimeout (hpmb : s.pmb = true) (hreg : (s.rail ch).cfg.pmbAddr ≠ 0) :
    exec (.pmbusSclTimeout ch) s = .next (finish s (s.pmbFail ch)) := by
  have harm : exec (.pmbusSclTimeout ch) s = execPmbusSclTimeout ch s := rfl
  rw [harm, execPmbusSclTimeout, run, if_pos hpmb, if_neg hreg]
end

/-! ### The statement -/

/-- Settles O53: the abandoned transaction and the status read that is not acknowledged are both one failed transaction of
the rail, which turns on whether one failed before. -/
theorem heldClockCountsAsFailure : Obligations.HeldClockCountsAsFailure := by
  intro s ch w hch hw hack hpmb hreg
  subst hw
  rw [exec_pmbusSclTimeout hpmb hreg]
  refine ⟨?sameAsUnacked, fun hfirst => ?retried, fun hsecond hlen => ⟨_, rfl, ?stale⟩⟩
  case sameAsUnacked => rw [State.statusWord_of_unacked hch hack hreg]
  case retried => rw [State.pmbFail_of_first hfirst]
  case stale => rw [finish_rail, State.pmbFail_of_second hsecond, State.pmbStale_stale hlen]

end Sys2Proof.Machine
end

section
/-! What the rows of the table have in common: each is a `run` in a power domain, so it answers a next state, keeps the
queue and the canonical memory, and does nothing while its domain has no power. -/
namespace Sys2Proof.Machine
open Sys2Proof

/-! ### Domains -/

/-- A power domain that is up only where the chip is in ACTIVE, QSC or STBY (Table 3-6). -/
def Switched (on : State → Bool) : Prop := ∀ s, on s = true → s.keeper = true

theorem keeper_of_core {s : State} (h : s.core = true) : s.keeper = true := by
  unfold State.core at h
  unfold State.keeper
  simp only [Bool.and_eq_true, Bool.or_eq_true] at h ⊢
  tauto

theorem switched_keeper : Switched State.keeper := fun _ h => h
theorem switched_core : Switched State.core := fun _ => keeper_of_core
theorem switched_solram : Switched State.solram := fun s h => by
  simp only [State.solram, Bool.and_eq_true] at h
  exact keeper_of_core h.1.1

theorem keeper_eq_false {s : State} (h₁ : s.power.chip ≠ .active) (h₂ : s.power.chip ≠ .qsc) (h₃ : s.power.chip ≠ .stby) :
    s.keeper = false := by simp [State.keeper, h₁, h₂, h₃]

/-! ### A row is a run -/

theorem run_on {on : State → Bool} {s t : State} {f : State → State} (h : on s = true) (e : f s = t) :
    run on s f = .next (finish s t) := by rw [run, if_pos h, e]

theorem run_off {on : State → Bool} {s : State} {f : State → State} (h : on s = false) : run on s f = .next s := by
  rw [run, if_neg (by simp [h])]

/-- What a row answers: a `run`, which outside the AON rows is one in a switched domain. -/
def RowOf (aon : Bool) (s : State) (r : Host.Outcome State Fault Refusal) : Prop :=
  ∃ on f, r = run on s f ∧ (aon = false → Switched on)

theorem RowOf.run {aon : Bool} {s : State} (on : State → Bool) (f : State → State) (h : aon = false → Switched on) :
    RowOf aon s (run on s f) := ⟨on, f, rfl, h⟩

theorem RowOf.bar {aon : Bool} {s : State} {on : State → Bool} {m : Nat} {ide read : Bool} {f : State → State}
    (h : Switched on) : RowOf aon s (barRun on m ide read s f) := .run on _ fun _ => h

theorem exec_row (i : Instr) (s : State) : RowOf (aonRow i) s (exec i s) := by
  unfold exec
  cases i
  all_goals dsimp only
  case mbxSqTailWrite | fordDbWrite => exact .bar switched_keeper
  case fordFlagWrite | fordDataWrite | bar2UnmappedAccess | msixUnmask | mbxEnable | mbxDisable | mbxCqHeadWrite
    | mbxEqHeadWrite | loRegisterRead | registerWrite => exact .bar switched_core
  all_goals exact .run _ _ (by simp [aonRow, switched_core, switched_keeper, switched_solram])

theorem exec_pending (i : Instr) (s : State) : ∃ t, exec i s = .next t ∧ t.pending = s.pending := by
  obtain ⟨on, f, hrun, -⟩ := exec_row i s
  rw [hrun]
  cases hon : on s with
  | true => exact ⟨_, run_on hon rfl, rfl⟩
  | false => exact ⟨_, run_off hon, rfl⟩

theorem exec_mem_wf {i : Instr} {s t : State} (h : s.mem.wf = true) (e : exec i s = .next t) : t.mem.wf = true := by
  obtain ⟨on, f, hrun, -⟩ := exec_row i s
  exact run_mem_wf on s t f h (hrun ▸ e)

/-! ### The statements -/

/-- Settles O1: on a queue that is not empty the step is its second branch. -/
theorem stepRunsFrontCommand : Obligations.StepRunsFrontCommand := fun _ _ _ => rfl

/-- Settles O3: the row is a `run`, and a `run` hands back the queue it was given. -/
theorem noCommandStopsTheBlock : Obligations.NoCommandStopsTheBlock := by
  intro c rest s h
  have hstep : step s = exec c { s with pending := rest } := by rw [step, h]
  rw [hstep]
  exact exec_pending c { s with pending := rest }

/-- Settles O4: the stores of a row, and those of the tick, are committed one by one into the canonical list. -/
theorem memoryStaysCanonical : Obligations.MemoryStaysCanonical := by
  intro s t h e
  cases hq : s.pending with
  | nil =>
    obtain rfl : tick s = t := by simpa [step, hq] using e
    exact finish_mem_wf s.count1 _ h
  | cons c rest =>
    have hexec : exec c { s with pending := rest } = .next t := by simpa [step, hq] using e
    exact exec_mem_wf (s := { s with pending := rest }) h hexec

/-- Settles O6: the domain of such a row is a switched one, and none of those is up in the other chip states. -/
theorem unpoweredDomainsDoNothing : Obligations.UnpoweredDomainsDoNothing := by
  intro i s hi h₁ h₂ h₃
  have hkeeper := keeper_eq_false h₁ h₂ h₃
  obtain ⟨on, f, hrun, hon⟩ := exec_row i s
  rw [hrun]
  cases hup : on s with
  | false => exact run_off hup
  | true => simp [hon hi s hup] at hkeeper

end Sys2Proof.Machine
end

section
/-! What an event writes (R444, R445): the logs with the flash behind them, and the rings with their functions' vectors. -/
namespace Sys2Proof.Machine

/-- `t` is `s` but for the logs, the flash, the mailboxes and the functions. -/
def State.EventsOnly (s t : State) : Prop :=
  ∃ flash logs mbx fns, t = { s with flash := flash, logs := logs, mbx := mbx, fns := fns }

section
variable {s t u : State}

theorem State.EventsOnly.refl (s : State) : s.EventsOnly s := ⟨_, _, _, _, rfl⟩

theorem State.EventsOnly.trans (h : s.EventsOnly t) (k : t.EventsOnly u) : s.EventsOnly u := by
  obtain ⟨_, _, _, _, rfl⟩ := h
  obtain ⟨_, _, _, _, rfl⟩ := k
  exact ⟨_, _, _, _, rfl⟩

theorem State.EventsOnly.foldl {α : Type} {f : State → α → State} (h : ∀ s a, State.EventsOnly s (f s a)) (l : List α)
    (s : State) : s.EventsOnly (l.foldl f s) :=
  List.foldlRecOn (motive := fun t => s.EventsOnly t) l f (.refl s) fun t ht a _ => ht.trans (h t a)

theorem State.crash_eventsOnly (s : State) (r : LogRec) : s.EventsOnly (s.crash r) := by
  dsimp only [State.crash]
  split
  · exact .refl s
  · exact ⟨_, _, _, _, rfl⟩

theorem State.log_eventsOnly (s : State) (r : LogRec) : s.EventsOnly (s.log r) := by
  unfold State.log
  split
  · exact ⟨_, _, _, _, rfl⟩
  · dsimp only
    split
    · exact .trans ⟨_, _, _, _, rfl⟩ (State.crash_eventsOnly _ _)
    · exact ⟨_, _, _, _, rfl⟩

theorem State.signalEq_eventsOnly (s : State) (m : Nat) (b : Mailbox) : s.EventsOnly (s.signalEq m b) :=
  .foldl (fun _ _ => ⟨_, _, _, _, rfl⟩) _ s

theorem State.post_eventsOnly (s : State) (m : Nat) (e : Event) : s.EventsOnly (s.post m e) :=
  .trans (t := s.updMb m (fun b => b.post s.now e)) ⟨_, _, _, _, rfl⟩ (State.signalEq_eventsOnly ..)

theorem State.emit_eventsOnly (s : State) (rings : List Nat) (code cls source payload : Nat) (final : Bool)
    (part : Option Nat) (hide : Bool) : s.EventsOnly (s.emit rings code cls source payload final part hide) := by
  unfold State.emit
  refine .trans ?_ (.foldl (fun _ _ => State.post_eventsOnly ..) _ _)
  split
  · exact State.log_eventsOnly ..
  · exact .refl s

theorem State.EventsOnly.sup (h : s.EventsOnly t) : t.sup = s.sup := by obtain ⟨_, _, _, _, rfl⟩ := h; rfl
theorem State.EventsOnly.power (h : s.EventsOnly t) : t.power = s.power := by obtain ⟨_, _, _, _, rfl⟩ := h; rfl
end

section
variable (s : State) (rings : List Nat) (code cls source payload : Nat) (final : Bool) (part : Option Nat) (hide : Bool)
@[simp] theorem State.emit_sup : (s.emit rings code cls source payload final part hide).sup = s.sup :=
  (s.emit_eventsOnly ..).sup
@[simp] theorem State.emit_power : (s.emit rings code cls source payload final part hide).power = s.power :=
  (s.emit_eventsOnly ..).power
end

end Sys2Proof.Machine
end

section
/-! FAULT_OFF is left only by COLD (R58): with every rail off, no judged rail faults and no sequence runs, so no other row
that still has power touches the supply's resting state. -/
namespace Sys2Proof.Machine
open Sys2Proof

/-- The state of the statement: the chip rests in FAULT_OFF and power is not good. -/
def Rests (s : State) : Prop := FaultedOff s ∧ s.sup.powerGood = false

section
variable {s t : State}

/-- What rest turns on. -/
theorem rests_iff : Rests s ↔ s.power.chip = .faultOff ∧ s.power.entry = none ∧ s.sup.seq = .steady ∧
    s.sup.powerGood = false ∧ ∀ r ∈ s.rails, r.enabled = false := by
  unfold Rests FaultedOff; tauto

theorem Rests.of_eq (h : Rests s) (hpower : t.power = s.power) (hsup : t.sup = s.sup) (hrails : t.rails = s.rails) :
    Rests t := by
  rw [rests_iff] at h ⊢
  rwa [hpower, hsup, hrails]

/-- A row keeps the rest if its effect does, where its domain is up. -/
theorem Rests.run {on : State → Bool} {f : State → State} (h : Rests s) (hf : on s = true → Rests (f s))
    (e : run on s f = .next t) : Rests t := by
  cases hon : on s with
  | true =>
    obtain rfl : finish s (f s) = t := by simpa using (run_on hon rfl).symm.trans e
    exact hf hon
  | false =>
    obtain rfl : s = t := by simpa using (run_off hon).symm.trans e
    exact h

theorem Rests.emit (h : Rests s) (rings : List Nat) (code cls source payload : Nat) (final : Bool) (part : Option Nat)
    (hide : Bool) : Rests (s.emit rings code cls source payload final part hide) := h.of_eq (by simp) (by simp) (by simp)

theorem Rests.alertBit (h : Rests s) (i : Nat) : Rests (s.alertBit i) := rests_iff.2 (rests_iff.1 h)

/-! ### What does nothing at rest -/

theorem Rests.rail_off (h : Rests s) (ch : Nat) : (s.rail ch).enabled = false := by
  obtain ⟨-, -, -, -, hoff⟩ := rests_iff.1 h
  by_cases hch : ch < s.rails.length
  · exact hoff _ (by simp [State.rail, hch])
  · simp [State.rail, hch]

theorem Rests.not_judged (h : Rests s) (ch : Nat) : s.judged ch = false := by simp [State.judged, h.rail_off]

theorem Rests.not_falling (h : Rests s) (ch : Nat) : s.falling ch = false := by
  obtain ⟨-, -, hseq, -⟩ := rests_iff.1 h
  simp [State.falling, hseq]

theorem Rests.not_warmable (h : Rests s) : s.warmable = false := by
  obtain ⟨-, -, -, hgood, -⟩ := rests_iff.1 h
  simp [State.warmable, hgood]

theorem Rests.wake (h : Rests s) : s.wake = s := by
  obtain ⟨hchip, hentry, -⟩ := rests_iff.1 h
  simp [State.wake, hchip, hentry]

/-- A level-3 fault of a device in FAULT_OFF leaves it there (R48): FAULT_N is asserted and level 2 ends. -/
theorem Rests.faultDown (h : Rests s) (r : RailFault) : Rests (s.faultDown r) := by
  obtain ⟨hchip, hentry, hseq, hgood, hoff⟩ := rests_iff.1 h
  have hdown : s.faultDown r = { s with sup := { s.sup with faultN := true, level2At := none } } := by
    simp [State.faultDown, hseq, hchip]
  rw [hdown]
  exact rests_iff.2 ⟨hchip, hentry, hseq, hgood, hoff⟩

theorem Rests.refLoss (h : Rests s) : Rests s.refLoss := by
  unfold State.refLoss
  split
  · exact h
  · refine Rests.alertBit (Rests.emit ?_ ..) _
    exact h.of_eq rfl rfl rfl

theorem mem_updAt {α : Type} {l : List α} {i : Nat} {f : α → α} {x : α} (h : x ∈ updAt l i f) : x ∈ l ∨ ∃ y ∈ l, x = f y := by
  induction l generalizing i with
  | nil => exact .inl h
  | cons a r ih =>
    cases i with
    | zero =>
      rcases List.mem_cons.1 h with rfl | h
      · exact .inr ⟨a, List.mem_cons_self, rfl⟩
      · exact .inl (List.mem_cons_of_mem _ h)
    | succ n =>
      rcases List.mem_cons.1 h with rfl | h
      · exact .inl List.mem_cons_self
      · rcases ih h with h | ⟨y, hy, rfl⟩
        · exact .inl (List.mem_cons_of_mem _ h)
        · exact .inr ⟨y, List.mem_cons_of_mem _ hy, rfl⟩

/-- A change of a rail that does not enable it. -/
theorem Rests.updRail (h : Rests s) {f : Rail → Rail} (hf : ∀ r, (f r).enabled = r.enabled) (ch : Nat) :
    Rests (s.updRail ch f) := by
  obtain ⟨hchip, hentry, hseq, hgood, hoff⟩ := rests_iff.1 h
  refine rests_iff.2 ⟨hchip, hentry, hseq, hgood, fun r hr => ?_⟩
  rcases mem_updAt hr with hr | ⟨y, hy, rfl⟩
  · exact hoff r hr
  · rw [hf]; exact hoff y hy
end

/-- Each row of the AON domain but COLD keeps the rest. -/
theorem rests_of_exec {i : Instr} {s t : State} (h : Rests s) (hcold : coldRow i = false) (e : exec i s = .next t) :
    Rests t := by
  cases haon : aonRow i with
  | false =>
    have hchip := (rests_iff.1 h).1
    obtain rfl : s = t := by
      simpa using (unpoweredDomainsDoNothing i s haon (by simp [hchip]) (by simp [hchip]) (by simp [hchip])).symm.trans e
    exact h
  | true =>
    obtain ⟨hchip, hentry, hseq, hgood, -⟩ := rests_iff.1 h
    unfold exec at e
    cases i
    all_goals dsimp only at e
    -- judged rails: none
    case pmbAlert | pmbusTelemetryPoll | pmbusSclTimeout =>
      exact h.run (on := State.pmb) (fun hon => by simp [State.pmb, h.not_judged] at hon) e
    case plainThermalSample p _ | plainThermalTrip p _ =>
      exact h.run (on := (State.sensed · p)) (fun hon => by simp [State.sensed, h.not_judged] at hon) e
    case railGlitch | railPgFault => exact h.run (on := State.aon) (fun _ => by simpa [h.not_judged] using h) e
    case railWindowFault =>
      refine h.run (on := State.aon) (fun _ => ?_) e
      dsimp only
      split
      · split
        · split
          · exact h.faultDown _
          · exact h
        · exact h
      · simpa [h.not_judged] using h
    case level2Expiry =>
      refine h.run (on := State.aon) (fun _ => ?_) e
      split
      · split
        · exact h.faultDown _
        · exact h
      · exact h
    case recurrenceWindowEnd =>
      refine h.run (on := State.aon) (fun _ => ?_) e
      split
      · split
        · exact Rests.of_eq (h.updRail (fun _ => by rfl) _) rfl rfl rfl
        · exact h
      · exact h
    -- sequences: none
    case railFallen | pmbusVoutPoll => exact h.run (on := State.aon) (fun _ => by simpa [h.not_falling] using h) e
    case railJudgedGood | railOnTimeout | railOffTimeout | railFaultRecordWritten | chipStateReached =>
      exact h.run (on := State.aon) (fun _ => by simpa [hseq, hentry] using h) e
    -- wakes and resets
    case pldmSetStateEffecter => exact h.run (on := State.aon) (fun _ => by simpa [hchip, h.wake] using h) e
    case warmReset => exact h.run (on := State.aon) (fun _ => by simpa [State.warmReset, h.not_warmable] using h) e
    case perstNAssert =>
      refine h.run (on := State.always) (fun _ => ?_) e
      rw [if_neg (by simp [hgood])]
      exact rests_iff.2 (rests_iff.1 h)
    case perstNRelease =>
      refine h.run (on := State.always) (fun _ => ?_) e
      split
      · exact h
      · rw [if_neg (by simp [hchip])]
        exact rests_iff.2 (rests_iff.1 h)
    case vddAonPowerOn | vddAonPowerLoss | coldReset => cases hcold
    -- clocks, time and debug
    case refLossDeclared =>
      refine h.run (on := State.aon) (fun _ => ?_) e
      split
      · exact h.refLoss
      · exact h
    case refFreqEstimate =>
      refine h.run (on := State.aon) (fun _ => ?_) e
      dsimp only
      split
      · exact h
      · split
        · split
          · exact Rests.refLoss (h.of_eq rfl rfl rfl)
          · exact h.of_eq rfl rfl rfl
        · exact h.of_eq rfl rfl rfl
    case relockComplete =>
      refine h.run (on := State.aon) (fun _ => ?_) e
      split
      · refine Rests.emit ?_ ..
        exact h.of_eq rfl rfl rfl
      · exact h
    case ppsLost =>
      refine h.run (on := State.aon) (fun _ => ?_) e
      split
      · refine Rests.alertBit (Rests.emit ?_ ..) _
        exact h.of_eq rfl rfl rfl
      · exact h
    case ppsInEdge =>
      refine h.run (on := State.aon) (fun _ => ?_) e
      split
      · exact h
      · dsimp only
        split_ifs <;> exact h.of_eq rfl rfl rfl
    case generatorLock | refQualified | ppsOutFall =>
      refine h.run (on := State.aon) (fun _ => ?_) e
      split
      · exact h.of_eq rfl rfl rfl
      · exact h
    case ppsOutRise =>
      refine h.run (on := State.aon) (fun _ => ?_) e
      dsimp only
      split
      · exact h.of_eq rfl rfl rfl
      · exact h
    case pldmSensorRead => exact h.run (on := State.aon) (fun _ => h.of_eq rfl rfl rfl) e
    case jtagInstruction op =>
      refine h.run (on := State.aon) (fun _ => ?_) e
      dsimp only
      cases if s.jtagOpen op then op else .bypass <;> exact h.of_eq rfl rfl rfl
    -- every other row of the AON domain is listed above
    all_goals cases haon

/-- Settles O7: the rest of a device in FAULT_OFF is kept by every row that still has power, but COLD. -/
theorem faultOffLeftOnlyByCold : Obligations.FaultOffLeftOnlyByCold :=
  fun _ _ _ hcold hoff hgood e => rests_of_exec ⟨hoff, hgood⟩ hcold e

end Sys2Proof.Machine
end

section
/-! Memory read back: what the canonical list, a command's stores and the rotated ranges say of a byte after each operation
on them (R94, R242, R255). -/
namespace Sys2Proof.Machine

/-! ### The canonical list -/

theorem cellAt_of_lt {l : List Host.Cell} {k : Nat} (h : ∀ c ∈ l, k < c.1) : cellAt l k = none := by
  cases l with
  | nil => rfl
  | cons c r =>
    have hc : k < c.1 := h c List.mem_cons_self
    simp [cellAt, hc, hc.ne']

theorem cellAt_cons {c : Host.Cell} {r : List Host.Cell} (h : ∀ d ∈ r, c.1 < d.1) (k : Nat) :
    cellAt (c :: r) k = if c.1 = k then some c.2 else cellAt r k := by
  by_cases hk : c.1 = k
  · simp [cellAt, hk]
  · by_cases hlt : k < c.1
    · simp [cellAt, hk, hlt, cellAt_of_lt fun d hd => hlt.trans (h d hd)]
    · simp [cellAt, hk, hlt]

/-- A byte put before all others, listed unless it is zero. -/
theorem cellAt_head {r : List Host.Cell} {a : Nat} (h : ∀ d ∈ r, a < d.1) (v : Byte) (k : Nat) :
    (cellAt (if v = 0 then r else (a, v) :: r) k).getD 0 = if a = k then v else (cellAt r k).getD 0 := by
  by_cases hv : v = 0
  · rw [if_pos hv]
    split_ifs with hk
    · subst hk
      rw [cellAt_of_lt h, hv]; rfl
    · rfl
  · rw [if_neg hv, cellAt_cons h]
    split_ifs <;> rfl

theorem cellAt_cellPut {l : List Host.Cell} (h : cellsWf l = true) (a : Nat) (v : Byte) (k : Nat) :
    (cellAt (cellPut 0 l a v) k).getD 0 = if a = k then v else (cellAt l k).getD 0 := by
  induction l with
  | nil => exact cellAt_head (r := []) (by simp) v k
  | cons c r ih =>
    obtain ⟨-, hlt, hr⟩ := (cellsWf_cons c r).1 h
    obtain ⟨b, w⟩ := c
    rw [cellPut]
    by_cases hab : a < b
    · rw [if_pos hab]
      exact cellAt_head (r := (b, w) :: r) (by simpa [hab] using fun x y hx => hab.trans (hlt (x, y) hx)) v k
    · rw [if_neg hab]
      by_cases hba : b = a
      · subst hba
        rw [if_pos rfl, cellAt_head hlt, cellAt_cons hlt]
        split_ifs <;> rfl
      · have hput : ∀ d ∈ cellPut 0 r a v, b < d.1 := fun d hd => by
          rcases mem_cellPut hd with rfl | hd
          · change b < a
            omega
          · exact hlt d hd
        rw [if_neg hba, cellAt_cons hput, cellAt_cons hlt]
        by_cases hk : b = k
        · simp [hk, show a ≠ k by omega]
        · simpa [hk] using ih hr

theorem cellAt_cellClear {l : List Host.Cell} (h : cellsWf l = true) (lo hi k : Nat) :
    (cellAt (cellClear l lo hi) k).getD 0 = if lo ≤ k ∧ k < hi then 0 else (cellAt l k).getD 0 := by
  induction l with
  | nil => simp [cellClear, cellAt]
  | cons c r ih =>
    obtain ⟨-, hlt, hr⟩ := (cellsWf_cons c r).1 h
    have hclear : ∀ d ∈ cellClear r lo hi, c.1 < d.1 := fun d hd => hlt d (List.mem_filter.1 hd).1
    rw [cellAt_cons hlt]
    by_cases hc : c.1 < lo ∨ hi ≤ c.1
    · have hkeep : cellClear (c :: r) lo hi = c :: cellClear r lo hi := List.filter_cons_of_pos (by simpa using hc)
      rw [hkeep, cellAt_cons hclear]
      by_cases hk : c.1 = k
      · simp [hk, show ¬(lo ≤ k ∧ k < hi) by omega]
      · simpa [hk] using ih hr
    · have hdrop : cellClear (c :: r) lo hi = cellClear r lo hi := List.filter_cons_of_neg (by simpa using hc)
      rw [hdrop, ih hr]
      by_cases hk : c.1 = k
      · simp [show lo ≤ k ∧ k < hi by omega]
      · simp [hk]

/-! ### A command's stores -/

theorem opsAt_append (l r : List MemOp) (k : Nat) : opsAt (l ++ r) k = (opsAt l k).or (opsAt r k) := by
  induction l with
  | nil => rfl
  | cons o l ih =>
    cases o with
    | put a b => simp only [List.cons_append, opsAt, ih]; split <;> rfl
    | zero lo hi => simp only [List.cons_append, opsAt, ih]; split <;> rfl

/-- A list of stores that puts every address of it once. -/
theorem opsAt_map_put (l : List Nat) (f : Nat → Byte) (k : Nat) :
    opsAt (l.map fun i => .put i (f i)) k = if k ∈ l then some (f k) else none := by
  induction l with
  | nil => rfl
  | cons a l ih =>
    simp only [List.map_cons, opsAt, ih, List.mem_cons]
    by_cases hk : a = k
    · simp [hk]
    · simp [hk, Ne.symm hk]

/-! ### Rotated ranges -/

theorem rotationOf_append (l r : List (Nat × Nat × Nat)) (k : Nat) :
    rotationOf (l ++ r) k = (rotationOf l k).or (rotationOf r k) := by
  induction l with
  | nil => rfl
  | cons x l ih =>
    obtain ⟨a, b, n⟩ := x
    simp only [List.cons_append, rotationOf, ih]
    split <;> rfl

theorem rotationOf_piece (p : Prop) [Decidable p] (a b n k : Nat) :
    rotationOf (if p then [(a, b, n)] else []) k = if p ∧ a ≤ k ∧ k < b then some n else none := by
  by_cases hp : p <;> simp [hp, rotationOf]

/-- A cut takes its range out of every rotated one. -/
theorem rotationOf_cutRanges (lo hi : Nat) (l : List (Nat × Nat × Nat)) (k : Nat) :
    rotationOf (cutRanges lo hi l) k = if lo ≤ k ∧ k < hi then none else rotationOf l k := by
  induction l with
  | nil => simp [cutRanges, rotationOf]
  | cons x r ih =>
    obtain ⟨a, b, n⟩ := x
    rw [cutRanges, rotationOf_append, ih]
    by_cases hout : hi ≤ a ∨ b ≤ lo
    · by_cases hk : a ≤ k ∧ k < b
      · simp [hout, hk, rotationOf, show ¬(lo ≤ k ∧ k < hi) by omega]
      · simp [hout, hk, rotationOf]
    · -- what is left of a range that the cut meets lies before it and behind it
      rw [if_neg (by simpa using hout), rotationOf_append, rotationOf_piece, rotationOf_piece, rotationOf]
      grind

/-! ### Reads after stores -/

section
variable (m : Memory) (k : Nat)

/-- A byte under no rotated key is what the stores say, or else the list. -/
theorem Memory.get_of_plain {m : Memory} {k : Nat} (h : rotationOf m.rekeyed k = none) :
    m.get k = (opsAt m.ops k).getD ((cellAt m.cells k).getD 0) := by rw [Memory.get, h]

/-- A settled granule has its bytes under no rotated key. -/
theorem Memory.settle_plain : rotationOf (m.settle k).rekeyed k = none := by
  unfold Memory.settle
  cases hrot : rotationOf m.rekeyed k with
  | none => exact hrot
  | some n =>
    dsimp only
    rw [rotationOf_cutRanges, if_pos (by omega)]

/-- Settling writes the bytes of the granule as they read. -/
theorem Memory.settle_get (a : Nat) : (m.settle k).get a = m.get a := by
  unfold Memory.settle
  cases rotationOf m.rekeyed k with
  | none => rfl
  | some n =>
    dsimp only
    have hops : (List.range 64).map (fun i => MemOp.put (k / 64 * 64 + i) (m.get (k / 64 * 64 + i))) =
        ((List.range 64).map (k / 64 * 64 + ·)).map fun i => .put i (m.get i) := by simp
    have hmem : a ∈ (List.range 64).map (k / 64 * 64 + ·) ↔ k / 64 * 64 ≤ a ∧ a < k / 64 * 64 + 64 := by
      simp only [List.mem_map, List.mem_range]
      exact ⟨by rintro ⟨i, hi, rfl⟩; omega, fun ⟨h₁, h₂⟩ => ⟨a - k / 64 * 64, by omega, by omega⟩⟩
    conv_lhs => rw [Memory.get]
    rw [rotationOf_cutRanges, hops, opsAt_append, opsAt_map_put]
    by_cases hin : k / 64 * 64 ≤ a ∧ a < k / 64 * 64 + 64
    · simp [hin, hmem.2 hin]
    · rw [if_neg hin, if_neg (mt hmem.1 hin), Option.none_or, ← Memory.get]

theorem Memory.put_get_same (v : Byte) : (m.put k v).get k = v := by
  rw [Memory.get_of_plain (m := m.put k v) (m.settle_plain k)]
  simp [Memory.put, opsAt]

theorem Memory.put_get_ne {a : Nat} (h : a ≠ k) (v : Byte) : (m.put k v).get a = m.get a := by
  rw [← m.settle_get k a, Memory.get, Memory.get]
  simp [Memory.put, opsAt, Ne.symm h]

theorem Memory.zero_get (lo hi a : Nat) : (m.zero lo hi).get a = if lo ≤ a ∧ a < hi then 0 else m.get a := by
  rw [Memory.get, Memory.get]
  simp only [Memory.zero, rotationOf_cutRanges, opsAt]
  by_cases h : lo ≤ a ∧ a < hi <;> simp [h]
end

/-! ### The statements -/

/-- Settles O8: the stores are committed oldest first, and the newest one that covers the byte is what is read, in the list as
among the stores. -/
theorem committedStoresReadBack : Obligations.CommittedStoresReadBack := by
  intro l ops k h
  induction ops with
  | nil => rfl
  | cons o r ih =>
    have hwf := commitOps_wf l r h
    cases o with
    | put a b =>
      rw [commitOps, MemOp.apply, cellAt_cellPut hwf, ih, opsAt]
      split <;> rfl
    | zero lo hi =>
      rw [commitOps, MemOp.apply, cellAt_cellClear hwf, ih, opsAt]
      by_cases hk : lo ≤ k ∧ k < hi <;> simp [hk]

/-- Settles O9: a store settles its granule first, so that its own byte lies under no rotated key and every other one reads on. -/
theorem storeThenLoad : Obligations.StoreThenLoad := by
  refine ⟨fun m k v => m.put_get_same k v, fun m k a v h => m.put_get_ne k h v, fun m lo hi a h₁ h₂ => ?_, fun m lo hi a h => ?_⟩
  · rw [m.zero_get, if_pos ⟨h₁, h₂⟩]
  · rw [m.zero_get, if_neg (by omega)]

end Sys2Proof.Machine
end

section
/-! Two names of one frame (R238, R239). -/
namespace Sys2Proof.Machine
open Sys2Proof

/-- Sixteen live Basins, more than the device has (R236): the interleaved view then reaches into the affine one. -/
def State.sixteenLive : State := { State.reset with mem := { State.reset.mem with live := List.range 16 } }

/-- There the first affine address has a name in the interleaved view too, and reads as that. -/
theorem localKey_sixteenLive : localKey State.sixteenLive affineBase = some (frameKey 0 8388608 0) := by decide

/-- Refutes O56: the last clause speaks of every state, and nothing in it bounds the number of live Basins. With sixteen of them
the interleaved view is longer than the affine base, so the affine name of Basin 0's first byte names another frame. -/
theorem not_interleaveIsOneToOne : ¬ Obligations.InterleaveIsOneToOne := by
  rintro ⟨-, -, h⟩
  have haffine := (h State.sixteenLive 0 0 0 0 (by decide) (by decide) (by decide) (by decide) (by decide)).2
  have hsame := localKey_sixteenLive.symm.trans haffine
  exact absurd hsame (by decide)

end Sys2Proof.Machine
end

section
/-! Tokens scaled by rank (R266): a factor never gives its rank more than what the ranks above leave. -/
namespace Sys2Proof.Machine

/-- What the reservations of a rank hold. -/
def heldAt (l : List (Nat × Nat)) (k : Nat) : Nat := ((l.filter (·.1 == k)).map (·.2)).sum

theorem heldAt_cons (x : Nat × Nat) (l : List (Nat × Nat)) (k : Nat) :
    heldAt (x :: l) k = (if x.1 = k then x.2 else 0) + heldAt l k := by
  by_cases h : x.1 = k <;> simp [heldAt, h]

/-- The scaled tokens, before rounding, summed rank by rank. -/
theorem sum_scaled (F : Nat → Nat) {l : List (Nat × Nat)} (h : ∀ x ∈ l, x.1 < 3) :
    (l.map fun x => x.2 * F x.1).sum = heldAt l 0 * F 0 + heldAt l 1 * F 1 + heldAt l 2 * F 2 := by
  induction l with
  | nil => simp [heldAt]
  | cons x l ih =>
    have hx : x.1 = 0 ∨ x.1 = 1 ∨ x.1 = 2 := by have := h x List.mem_cons_self; omega
    rw [List.map_cons, List.sum_cons, ih fun y hy => h y (List.mem_cons_of_mem _ hy)]
    rcases hx with hx | hx | hx <;> simp [heldAt_cons, hx] <;> ring

/-- Rounding toward zero gives no token away. -/
theorem sum_div_le (F : Nat → Nat) (n : Nat) (l : List (Nat × Nat)) :
    (l.map fun x => x.2 * F x.1 / n).sum * n ≤ (l.map fun x => x.2 * F x.1).sum := by
  induction l with
  | nil => simp
  | cons x l ih =>
    simp only [List.map_cons, List.sum_cons, Nat.add_mul]
    exact Nat.add_le_add (Nat.div_mul_le_self _ _) ih

/-- The factor of the one rank that is scaled. -/
def scaleOf (x : Int) (r : Nat) : Nat := if x ≤ 0 || r = 0 then 0 else (x * 32768 / r).toNat

theorem rankFactor_eq (t : Int) (g v b k : Nat) : rankFactor t g v b k =
    if (g + v + b : Nat) ≤ t then 32768
    else if (g + v : Nat) ≤ t then (if k = 2 then scaleOf (t - (g + v : Nat)) b else 32768)
    else if (g : Int) ≤ t then (if k = 0 then 32768 else if k = 1 then scaleOf (t - g) v else 0)
    else if k = 0 then scaleOf t g else 0 := rfl

/-- A scaled rank has at most what is left for it. -/
theorem mul_scaleOf_le (x : Int) (r : Nat) : ((r * scaleOf x r : Nat) : Int) ≤ max x 0 * 32768 := by
  unfold scaleOf
  by_cases h : x ≤ 0 ∨ r = 0
  · rw [if_pos (by simpa using h)]
    have := Int.le_max_right x 0
    push_cast
    omega
  · rw [if_neg (by simpa using h)]
    push Not at h
    obtain ⟨hx, hr⟩ := h
    have hnonneg : 0 ≤ x * 32768 / (r : Int) := by positivity
    rw [Nat.cast_mul, Int.toNat_of_nonneg hnonneg, max_eq_left hx.le]
    exact Int.mul_ediv_self_le (by omega)

theorem scaleOf_le {x : Int} {r : Nat} (h : x < r) : scaleOf x r ≤ 32768 := by
  unfold scaleOf
  split
  · omega
  · have hdiv : x * 32768 / (r : Int) ≤ 32768 := Int.ediv_le_of_le_mul (by simp_all; omega) (by omega)
    omega

/-- Settles O57: in each branch of the factor the ranks above have their whole amounts, and the scaled one what is left. -/
theorem scaledTokensNeverExceedT : Obligations.ScaledTokensNeverExceedT := by
  intro t l hl held factor
  have hfactor (k : Nat) : factor k = rankFactor t (heldAt l 0) (heldAt l 1) (heldAt l 2) k := rfl
  have hround := (sum_div_le factor 32768 l).trans_eq (sum_scaled factor hl)
  generalize (l.map fun x => x.2 * factor x.1 / 32768).sum = total at hround
  generalize heldAt l 0 = g at *
  generalize heldAt l 1 = v at *
  generalize heldAt l 2 = b at *
  simp only [rankFactor_eq] at hfactor
  split_ifs at hfactor with h₀ h₁ h₂
  · -- all is within T
    simp only [hfactor] at hround ⊢
    refine ⟨by omega, by omega, by omega, by omega⟩
  · -- BRONZE is scaled
    have hle : scaleOf (t - (g + v : Nat)) b ≤ 32768 := scaleOf_le (by omega)
    have hfit := mul_scaleOf_le (t - (g + v : Nat)) b
    generalize scaleOf (t - (g + v : Nat)) b = q at *
    simp only [hfactor] at hround ⊢
    norm_num at hround
    generalize b * q = bq at *
    refine ⟨fun k => by split <;> omega, by norm_num, by norm_num, by omega⟩
  · -- SILVER is scaled, BRONZE has nothing
    have hle : scaleOf (t - g) v ≤ 32768 := scaleOf_le (by omega)
    have hfit := mul_scaleOf_le (t - g) v
    generalize scaleOf (t - g) v = q at *
    simp only [hfactor] at hround ⊢
    norm_num at hround
    generalize v * q = vq at *
    refine ⟨fun k => by split <;> [omega; split <;> omega], by norm_num, by norm_num, by omega⟩
  · -- GOLD is scaled, the others have nothing
    have hle : scaleOf t g ≤ 32768 := scaleOf_le (by omega)
    have hfit := mul_scaleOf_le t g
    generalize scaleOf t g = q at *
    simp only [hfactor] at hround ⊢
    norm_num at hround
    generalize g * q = gq at *
    refine ⟨fun k => by split <;> omega, by norm_num, by norm_num, by omega⟩

end Sys2Proof.Machine
end

section
/-! A SEM serves its waiters in order (R227). -/
namespace Sys2Proof.Machine

/-- What serving a queue does: the granted are its front, they have their units from the count, and the first that is left
asks for more than is left. -/
theorem SyncObj.serveSem_spec (l : List Waiter) (x : SyncObj) :
    l = (SyncObj.serveSem l x).2.map (·.who) ++ (SyncObj.serveSem l x).1.waiters ∧
    x.count = (SyncObj.serveSem l x).1.count + ((SyncObj.serveSem l x).2.map (·.who.value)).sum ∧
    (∀ w rest, (SyncObj.serveSem l x).1.waiters = w :: rest → (SyncObj.serveSem l x).1.count < w.value) ∧
    ∀ g ∈ (SyncObj.serveSem l x).2, g.result = 0 := by
  induction l generalizing x with
  | nil => simp [SyncObj.serveSem]
  | cons w r ih =>
    by_cases hw : w.value ≤ x.count
    · obtain ⟨hqueue, hcount, hblock, hres⟩ := ih { x with count := x.count - w.value }
      have hserve : SyncObj.serveSem (w :: r) x = ((SyncObj.serveSem r { x with count := x.count - w.value }).1,
          { who := w, result := 0 } :: (SyncObj.serveSem r { x with count := x.count - w.value }).2) := by
        rw [SyncObj.serveSem, if_pos hw]
      rw [hserve]
      refine ⟨by simpa using hqueue, ?_, hblock, by simpa using hres⟩
      simp only [List.map_cons, List.sum_cons]
      dsimp only at hcount
      omega
    · simp only [SyncObj.serveSem, if_neg hw]
      refine ⟨rfl, by simp, fun v rest hv => ?_, by simp⟩
      obtain ⟨rfl, -⟩ := List.cons.inj hv
      exact Nat.lt_of_not_le hw

/-- Settles O58: a return is the saturated count served to the queue, and a take behind a queue joins it. -/
theorem semaphoreServesInOrder : Obligations.SemaphoreServesInOrder := by
  refine ⟨fun l x => SyncObj.serveSem_spec l x, fun x o value htyp => ?_, fun x w htyp hqueue => ?_⟩
  · have hsignal : x.signal o value =
        let y := { x with count := min (x.count + value) (2 ^ 32 - 1) }
        ((SyncObj.serveSem x.waiters y).1, (SyncObj.serveSem x.waiters y).2,
          if 2 ^ 32 ≤ x.count + value then some 1 else none) := by
      rw [SyncObj.signal, htyp]; rfl
    obtain ⟨hfront, hcount, -⟩ := SyncObj.serveSem_spec x.waiters { x with count := min (x.count + value) (2 ^ 32 - 1) }
    rw [hsignal]
    refine ⟨hfront, hcount, ?_⟩
    by_cases hbig : 2 ^ 32 ≤ x.count + value
    · exact iff_of_true (by rw [if_pos hbig]; rfl) hbig
    · exact iff_of_false (by rw [if_neg hbig]; exact Bool.false_ne_true) hbig
  · have hwait : x.wait w = ({ x with waiters := x.waiters ++ [w] }, []) := by
      rw [SyncObj.wait, htyp]
      simp [hqueue]
    rw [hwait]
    exact ⟨rfl, rfl⟩

end Sys2Proof.Machine
end

section
/-! A record of a confidential partition is written without SOURCE and PAYLOAD (R446). -/
namespace Sys2Proof.Machine

/-- The state's logs as they are kept: in the AON domain and in flash. -/
def State.kept (s : State) : Logs × List Host.Cell := (s.logs, s.flash)

theorem State.post_kept (s : State) (m : Nat) (e : Event) : (s.post m e).kept = s.kept :=
  List.foldlRecOn (motive := fun t : State => t.kept = s.kept) _ _ rfl fun _ ht _ _ => ht

/-- The rings of an event do not touch the logs, and a hidden record is the same for every SOURCE and PAYLOAD. -/
theorem State.emit_kept (s : State) (rings : List Nat) (code cls source payload : Nat) (final : Bool) (part : Option Nat) :
    (s.emit rings code cls source payload final part true).kept =
      (if cls < 2 || rings.contains 0 then s.log { code := code, cls := cls, stamp := s.now, source := 0, payload := 0 }
        else s).kept :=
  List.foldlRecOn (motive := fun t : State => t.kept = _) _ _ rfl fun t ht m _ => (t.post_kept m _).trans ht

/-- Settles O59: either event leaves what one and the same hidden record leaves. -/
theorem confidentialRecordsTellNothing : Obligations.ConfidentialRecordsTellNothing := by
  intro s rings code cls source source' payload payload' final p hsecret
  have hhide : s.secretSource (some p) = true := hsecret
  have hkept := (s.emit_kept rings code cls source payload final (some p)).trans
    (s.emit_kept rings code cls source' payload' final (some p)).symm
  rw [hhide]
  exact Prod.mk.inj hkept

end Sys2Proof.Machine
end

section
/-! What a format holds it keeps (R274, R280, R281): a decoded number has no bit below the spacing of its own magnitude code, so
rounding leaves it alone. -/
namespace Sys2Proof.Machine

theorem Fmt.mag_of_subnormal (f : Fmt) {c : Nat} (h : c < 2 ^ f.man) : f.mag c = ⟨c, f.emin⟩ := by
  simp [Fmt.mag, Nat.div_eq_of_lt h]

theorem Fmt.mag_of_normal (f : Fmt) (x : Nat) {y : Nat} (h : y < 2 ^ f.man) :
    f.mag ((x + 1) * 2 ^ f.man + y) = ⟨(2 ^ f.man + y : Nat), f.emin + x⟩ := by
  have hdiv : ((x + 1) * 2 ^ f.man + y) / 2 ^ f.man = x + 1 := by
    rw [Nat.add_comm, Nat.add_mul_div_right _ _ (by positivity), Nat.div_eq_of_lt h, Nat.zero_add]
  have hmod : ((x + 1) * 2 ^ f.man + y) % 2 ^ f.man = y := by
    rw [Nat.mul_add_mod_self_right, Nat.mod_eq_of_lt h]
  simp [Fmt.mag, hdiv, hmod]

/-- A magnitude code is one of a subnormal number, or has an exponent field. -/
theorem Fmt.code_cases (f : Fmt) (c : Nat) : c < 2 ^ f.man ∨ ∃ x y, y < 2 ^ f.man ∧ c = (x + 1) * 2 ^ f.man + y := by
  by_cases h : c < 2 ^ f.man
  · exact .inl h
  · refine .inr ⟨c / 2 ^ f.man - 1, c % 2 ^ f.man, Nat.mod_lt _ (by positivity), ?_⟩
    have hpos : 1 ≤ c / 2 ^ f.man := (Nat.one_le_div_iff (by positivity)).2 (by omega)
    rw [Nat.sub_add_cancel hpos, Nat.mul_comm]
    exact (Nat.div_add_mod c _).symm

/-- A number that is a multiple of the spacing is not rounded. -/
theorem roundTo_exact (r : Option Nat) (n : Nat) (e : Int) : roundTo e r ⟨n, e⟩ = n := by simp [roundTo]

/-- The spacing that the converter chooses for a decoded magnitude is that of its code. -/
theorem Fmt.roundCode_mag (f : Fmt) (r : Option Nat) {c : Nat} (h : c ≠ 0) : f.roundCode r (f.mag c) = c := by
  rcases f.code_cases c with hc | ⟨x, y, hy, rfl⟩
  · have hlog : c.log2 < f.man := (Nat.log2_lt h).2 hc
    have hsp : max ((⟨c, f.emin⟩ : Dy).log2 - f.man) f.emin = f.emin := by
      simp only [Dy.log2, Int.natAbs_natCast]
      omega
    rw [f.mag_of_subnormal hc, Fmt.roundCode, hsp, roundTo_exact]
    simp
  · have hlog : (2 ^ f.man + y).log2 = f.man := by
      rw [Nat.log2_eq_iff (by positivity), Nat.pow_succ]
      omega
    have hsp : max ((⟨(2 ^ f.man + y : Nat), f.emin + x⟩ : Dy).log2 - f.man) f.emin = f.emin + x := by
      simp only [Dy.log2, Int.natAbs_natCast, hlog]
      omega
    rw [f.mag_of_normal x hy, Fmt.roundCode, hsp, roundTo_exact]
    simp only [add_sub_cancel_left, Int.toNat_natCast]
    ring

theorem Fmt.roundCode_neg (f : Fmt) (r : Option Nat) (d : Dy) : f.roundCode r d.neg = f.roundCode r d := by
  simp [Fmt.roundCode, roundTo, Dy.log2, Dy.neg]

theorem Fmt.mag_m_pos (f : Fmt) {c : Nat} (h : c ≠ 0) : 0 < (f.mag c).m := by
  rcases f.code_cases c with hc | ⟨x, y, hy, rfl⟩
  · rw [f.mag_of_subnormal hc]
    dsimp only
    omega
  · rw [f.mag_of_normal x hy]
    dsimp only
    positivity

/-- A bit pattern is its sign and its magnitude code. -/
theorem Fmt.sign_add_code (f : Fmt) {v : Nat} (h : v < 2 ^ (1 + f.exp + f.man)) :
    f.sign (bit v (f.exp + f.man)) + v % 2 ^ (f.exp + f.man) = v := by
  rw [Nat.add_assoc, Nat.pow_add] at h
  rw [Fmt.sign, bit, b2n, Nat.testBit_eq_decide_div_mod_eq]
  generalize f.exp + f.man = n at *
  have hsplit := Nat.div_add_mod v (2 ^ n)
  have hsign : v / 2 ^ n < 2 := Nat.div_lt_of_lt_mul (by omega)
  rcases Nat.le_one_iff_eq_zero_or_eq_one.1 (Nat.le_of_lt_succ hsign) with hs | hs <;> simp [hs] at hsplit ⊢ <;> omega

/-- The three kinds of Table 14-2. -/
theorem fmtOf_kind {code : Nat} {f : Fmt} (h : fmtOf code = some f) : f.kind ≤ 2 := by
  unfold fmtOf at h
  split at h <;> simp at h <;> subst h <;> decide

/-- The largest magnitude code of a format is the last one before its NaN and infinity. -/
theorem Fmt.le_maxCode {f : Fmt} (hkind : f.kind ≤ 2) {c : Nat} (hc : c < 2 ^ (f.exp + f.man))
    (h₀ : f.kind = 0 → c < f.infCode) (h₁ : f.kind = 1 → c ≠ f.nanCode) : c ≤ f.maxCode := by
  rcases (by omega : f.kind = 0 ∨ f.kind = 1 ∨ f.kind = 2) with hk | hk | hk
  · have := h₀ hk
    simp only [Fmt.maxCode, hk, if_true]
    omega
  · have := h₁ hk
    simp only [Fmt.nanCode, hk] at this
    simp only [Fmt.maxCode, hk]
    norm_num at this ⊢
    omega
  · simp only [Fmt.maxCode, hk]
    norm_num
    omega

/-- A number's sign and magnitude code come back. -/
theorem Fmt.convert_num (f : Fmt) (sat : Bool) (r : Option Nat) (neg : Bool) {c : Nat} (hc : c ≠ 0) (hmax : c ≤ f.maxCode) :
    f.convert sat r (.num (if neg then (f.mag c).neg else f.mag c)) = f.sign neg + c := by
  have hpos := f.mag_m_pos hc
  cases neg with
  | false =>
    have hneg : (f.mag c).isNeg = false := by simp [Dy.isNeg]; omega
    simp [Fmt.convert, f.roundCode_mag r hc, hmax, hneg]
  | true =>
    have hneg : (f.mag c).neg.isNeg = true := by simp [Dy.isNeg, Dy.neg]; omega
    simp [Fmt.convert, f.roundCode_neg, f.roundCode_mag r hc, hmax, hneg]

theorem Fmt.convert_decode (f : Fmt) (hkind : f.kind ≤ 2) (sat : Bool) (r : Option Nat) {v : Nat}
    (hv : v < 2 ^ (1 + f.exp + f.man)) (hnan : (f.decode v).isNan = false) : f.convert sat r (f.decode v) = v := by
  have hsplit := f.sign_add_code hv
  have hc : v % 2 ^ (f.exp + f.man) < 2 ^ (f.exp + f.man) := Nat.mod_lt _ (by positivity)
  unfold Fmt.decode at hnan ⊢
  dsimp only at hnan ⊢
  generalize bit v (f.exp + f.man) = neg at *
  generalize v % 2 ^ (f.exp + f.man) = c at *
  generalize hx : (if neg then (f.mag c).neg else f.mag c) = x at *
  split_ifs at hnan ⊢ with hinf heq hnan' hzero
  · obtain ⟨hk, -⟩ : f.kind = 0 ∧ f.infCode ≤ c := by simpa using hinf
    rw [← hsplit, heq]
    simp [Fmt.convert, hk]
  · cases hnan
  · cases hnan
  · rw [← hsplit, hzero]
    simp [Fmt.convert]
  · have h₀ : f.kind = 0 → c < f.infCode := by simpa using hinf
    have h₁ : f.kind = 1 → c ≠ f.nanCode := by simpa using hnan'
    rw [← hx, f.convert_num sat r neg hzero (Fmt.le_maxCode hkind hc h₀ h₁), hsplit]

/-- Settles O60: every format named has one of the three kinds, and none of them rounds what it holds. -/
theorem conversionKeepsRepresentableValues : Obligations.ConversionKeepsRepresentableValues := by
  intro f sat r v hf hv hnan
  have hkind : f.kind ≤ 2 := by
    rcases hf with rfl | rfl | ⟨code, hcode⟩
    · decide
    · decide
    · exact fmtOf_kind hcode
  exact f.convert_decode hkind sat r hv hnan

end Sys2Proof.Machine
end

section
/-! The frame of a Lolin command row (R151, R153, R154, R158): what it does with an entry that is not taken. -/
namespace Sys2Proof.Machine
open Sys2Proof

section
variable {s : State} {m : Nat} {e : Block}

theorem cpReads_eq_false : s.cpReads = false ↔ s.cpUp = false ∨ s.halts = 15 := by
  unfold State.cpReads
  cases s.cpUp <;> simp

theorem State.offer_of_not_admits (h : s.admits m e = false) (slot : Option (Nat × Nat)) : s.offer m e slot = (s, false) := by
  simp [State.offer, h]

theorem State.offerCmd_of_not_admits (h : s.admits m e = false) : s.offerCmd m e = (s, false) := by
  have hdup : ¬((s.taken ⟨m, eId e⟩).isNone && (s.taken ⟨m, eId e⟩).isSome) = true := by cases s.taken ⟨m, eId e⟩ <;> simp
  unfold State.offerCmd
  simp only [State.offer_of_not_admits h, if_neg hdup]
  split
  · split <;> rfl
  · rfl

/-- An entry that is not the next of its ring, or that the mailbox does not let in, is not taken. -/
theorem State.takeNext_refused (h : (s.mb m).posted = false ∨ s.admits m e = false) : s.takeNext m e = (s, false) := by
  unfold State.takeNext
  split
  · rfl
  · next hposted =>
    rw [State.offerCmd_of_not_admits (h.resolve_left (by simpa using hposted))]

theorem State.present_of_taken {r : Req} {t : Taken} (h : s.taken r = some t) : s.present r e = s := by
  rw [State.present, h, Option.isSome_some, if_pos rfl]

theorem State.present_of_refused {r : Req} (h : (s.mb r.m).posted = false ∨ s.admits r.m e = false) : s.present r e = s := by
  unfold State.present
  split
  · rfl
  · rw [State.takeNext_refused h]

theorem interpret_of_not_taken {op : Nat} {c : Cmd} (h : s.taken ⟨m, c.reqId⟩ = none)
    (chk : State → Block → Taken → Option (Nat × Nat)) (eff : State → Req → Taken → State) :
    interpret op m c s chk eff = s := by simp only [interpret, h]
end

/-- Settles O44: the frame presents the entry and interprets what is then taken. -/
theorem commandFrame : Obligations.CommandFrame := by
  intro op m c s t chk eff
  refine ⟨?idle, ?precheck, fun st res => lolin_refused, lolin_effect, ?cut, ?notTaken, ?taken⟩
  case idle =>
    intro ht hwait
    refine lolin_idle ht (notYet_iff.2 ?_)
    rw [cpReads_eq_false]
    tauto
  case precheck =>
    intro st res ht hready hpre
    rw [lolin_taken ht]
    simp [hready, hpre]
  case cut =>
    intro hcut ht hready hpre hchk
    rw [lolin_taken ht]
    simp [hready, hpre, hchk, hcut]
  case notTaken =>
    intro ht hrefused
    rw [lolin, State.present_of_refused hrefused, interpret_of_not_taken ht]
  case taken =>
    intro u _ hu ht
    rw [lolin, hu, lolin, State.present_of_taken ht]

end Sys2Proof.Machine
end

section
/-! Times since a stamp that may not be there yet. -/
namespace Sys2Proof.Machine

theorem all_due_iff {o : Option Nat} {d now : Nat} : (o.all fun t => decide (t + d ≤ now)) = true ↔ ∀ t ∈ o, t + d ≤ now := by
  cases o <;> simp

theorem any_due_iff {o : Option Nat} {d now : Nat} : (o.any fun t => decide (t + d ≤ now)) = true ↔ ∃ t ∈ o, t + d ≤ now := by
  cases o <;> simp

end Sys2Proof.Machine
end

section
/-! Basin temperatures (R256, Table 12-6). -/
namespace Sys2Proof.Machine
open Sys2Proof

theorem heldFor_some (n ns now : Nat) : heldFor (some n) ns now = decide (n + ns ≤ now) := rfl

theorem Basin.cooled_of_psr {x : Basin} (h : x.psr = true) (now : Nat) : x.cooled now =
    if heldFor x.below95 10000000 now then { x with psr := false, throttled := true } else x := by
  rw [Basin.cooled, if_pos h]

theorem Basin.cooled_of_not_psr {x : Basin} (h : x.psr = false) (now : Nat) :
    (x.cooled now).throttled = (x.throttled && !heldFor x.below92 1000000 now) ∧
    (x.throttled = false → (x.cooled now).doubled = (x.doubled && !heldFor x.below82 1000000 now)) := by
  cases hth : x.throttled <;> cases h92 : heldFor x.below92 1000000 now <;> cases hd : x.doubled <;>
    cases h82 : heldFor x.below82 1000000 now <;> simp [Basin.cooled, h, hth, h92, hd, h82]

/-- A limit that a reading reaches ends the time below it. -/
theorem below_of_le {t lim : Int} (h : lim ≤ t) (old : Option Nat) (now : Nat) : below t lim old now = none :=
  if_neg (by omega)

theorem below_of_lt {t lim : Int} (h : t < lim) (old : Option Nat) (now : Nat) : below t lim old now = some (old.getD now) :=
  if_pos h

/-- The Basin's readings and flags after a reading, before anything follows from them. -/
def State.heard (s : State) (b : Nat) (t : Int) : State :=
  s.updBasin b fun x => { (x.heard t (s.prof.threshOffset.getD b 0) s.now (s.tooHot b t)).defer with readAt := some s.now }

/-- A reading that is due: self-refresh where it is too hot, SLOW where the throttle begins, the withdrawal, and the event. -/
theorem exec_basinThermalRead {s : State} {b : Nat} (t : Int) (hcore : s.core = true) (hb : b < 8)
    (hdue : ∀ w ∈ (s.basin b).readAt, w + 100000 ≤ s.now) :
    exec (.basinThermalRead b t) s = .next (finish s (
      let u := if s.tooHot b t then (s.heard b t).toSelfRefresh b (s.basin b).retraining else s.heard b t
      let v := if !(s.basin b).throttled && (u.basin b).throttled then u.basinSlows b else u
      (if s.tooHot b t then v.withdrawHot else v).thermalChange b (s.basin b).thermal)) := by
  show execBasinThermalRead b t s = _
  refine run_on hcore (if_neg ?_)
  rw [all_due_iff.2 hdue]
  simpa using hb

/-- Settles O35: the conditions of Table 12-6 that a reading meets apply one after the other, and what is left as a Basin cools is
read off its flags. -/
theorem basinThermalRows : Obligations.BasinThermalRows := by
  refine ⟨fun s b t hcore hb hdue => ?reading, fun s b w t hcore hread hearly => ?early, fun s b hcore hb => ?release,
    fun x t th now hot => ?heard, fun x now n => ?cooled⟩
  case reading =>
    intro u
    have hu : u = s.heard b t := rfl
    clear_value u
    rw [exec_basinThermalRead t hcore hb hdue, ← hu]
    refine ⟨fun hhot hsame => ?_, fun hhot hold hnew => ?_, fun hhot hold => ?_, fun hhot hold hnew => ?_⟩
    · rcases hsame with hold | hnew
      · simp [hhot, hold]
      · simp [hhot, hnew]
    · simp [hhot, hold, hnew]
    · simp [hhot, hold]
    · simp [hhot, hold, hnew]
  case early =>
    show execBasinThermalRead b t s = _
    refine run_on hcore (if_pos ?_)
    rw [hread, Option.all_some, decide_eq_false (Nat.not_le.2 hearly)]
    exact Bool.or_true _
  case release =>
    show execBasinThermalRelease b s = _
    exact run_on hcore (if_neg (by omega))
  case heard =>
    refine ⟨?_, ?_, fun h => below_of_le h _ _, fun h => below_of_lt h _ _⟩ <;> simp [Basin.heard]
  case cooled =>
    refine ⟨fun hpsr hn => ?_, fun hpsr hn hheld => ?_, fun hpsr hth hn => ?_, fun hpsr hth hd hn => ?_⟩
    · rw [Basin.cooled_of_psr hpsr, hn, heldFor_some]
      by_cases hheld : n + 10000000 ≤ now
      · exact iff_of_true (by rw [if_pos (decide_eq_true hheld)]) hheld
      · exact iff_of_false (by rw [if_neg (by simpa using hheld), hpsr]; simp) hheld
    · rw [Basin.cooled_of_psr hpsr, hn, heldFor_some, if_pos (decide_eq_true hheld)]
    · rw [(Basin.cooled_of_not_psr hpsr now).1, hth, hn, heldFor_some, Bool.true_and, Bool.not_eq_false', decide_eq_true_eq]
    · rw [(Basin.cooled_of_not_psr hpsr now).2 hth, hd, hn, heldFor_some, Bool.true_and, Bool.not_eq_false', decide_eq_true_eq]

end Sys2Proof.Machine
end

section
/-! Device time, the windows of 1 µs and reset. -/
namespace Sys2Proof.Machine
open Sys2Proof

section
variable {s : State}

theorem slewStep_natAbs_le (slew : Int) (gap : Nat) : (slew - slewStep slew gap).natAbs ≤ slew.natAbs := by
  unfold slewStep
  grind

theorem slewStep_cases (slew : Int) (gap : Nat) :
    (slewStep slew gap = 0 ∨ slewStep slew gap = 1 ∨ slewStep slew gap = -1) ∧ (slewStep slew gap ≠ 0 → gap = 0) := by
  unfold slewStep
  grind

/-- Where every stream is empty no LC job waits. -/
theorem State.dropWaiting_of_empty (h : ∀ x ∈ s.streams, x.items = []) : s.dropWaiting = s := by
  have hlive (i : Nat) : s.live? i = none := by
    unfold State.live?
    split
    · rfl
    · next x hx => simp [Stream.head?, h x (List.mem_of_find?_eq_some hx)]
  simp [State.dropWaiting, hlive]

theorem step_empty (h : s.pending = []) : step s = .next (finish s.count1 s.count1.dropWaiting) := by
  rw [step, h, tick]

/-- Settles O2: the correction of one tick is -1, 0 or 1, and after a move the gap begins anew. -/
theorem emptyQueueCountsDeviceTime : Obligations.EmptyQueueCountsDeviceTime := by
  refine ⟨fun s h => step_empty h, fun s h hs => ?_, fun s h => ?_, fun s => ⟨slewStep s.time.slew s.time.gap, ?_⟩⟩
  · rw [step_empty h, State.dropWaiting_of_empty (s := s.count1) hs]
  · simp only [State.count1, h]
    rfl
  · obtain ⟨hcases, hgap⟩ := slewStep_cases s.time.slew s.time.gap
    refine ⟨hcases, rfl, rfl, slewStep_natAbs_le .., fun hd => ⟨hgap hd, ?_⟩, fun hd => ?_⟩
    · have hmin : 5000 ≤ slewGap s.fresh := Nat.le_max_left ..
      simp only [State.count1, bne_iff_ne.2 hd, if_true]
      omega
    · simp [State.count1, hd]
end

section
theorem getD_map_range {α : Type} (f : Nat → α) (n i : Nat) (d : α) : ((List.range n).map f).getD i d = if i < n then f i else d := by
  grind

theorem getD_replicate_self {α : Type} (n i : Nat) (d : α) : (List.replicate n d).getD i d = d := by
  grind

theorem State.reset_rail (ch : Nat) : (State.reset.rail ch).enabled = decide (ch = 0) := by
  unfold State.rail State.reset
  rw [getD_map_range]
  grind

/-- Settles O5: the state after reset, unit by unit; a unit whose number is out of range is a blank one. -/
theorem resetLeaves : Obligations.ResetLeaves := by
  refine ⟨rfl, rfl, rfl, rfl, rfl, fun ch h => ?_, rfl, rfl, rfl, fun m => ?_, fun p => ?_⟩
  · rw [State.reset_rail, decide_eq_false (by omega)]
  · exact congrArg Mailbox.enable (getD_replicate_self ..)
  · exact congrArg Part.exist (getD_replicate_self ..)
end

section
/-! The start of a window. -/
variable {s t : State}

theorem State.EventsOnly.now (h : s.EventsOnly t) : t.now = s.now := by obtain ⟨_, _, _, _, rfl⟩ := h; rfl

@[simp] theorem State.emit_now (s : State) (rings : List Nat) (code cls source payload : Nat) (final : Bool) (part : Option Nat)
    (hide : Bool) : (s.emit rings code cls source payload final part hide).now = s.now :=
  (s.emit_eventsOnly rings code cls source payload final part hide).now

@[simp] theorem State.ledgerEvent_now (s : State) (code kind i dir d r : Nat) : (s.ledgerEvent code kind i dir d r).now = s.now :=
  State.emit_now ..

@[simp] theorem State.degraded_now (s : State) (r : Resv) (dir factor : Nat) : (s.degraded r dir factor).now = s.now := by
  simp [State.degraded]

@[simp] theorem State.setFactors_now (kind i dir : Nat) (f : Nat → Nat) (tell : Bool) (s : State) :
    (s.setFactors kind i dir f tell).now = s.now := by
  refine List.foldlRecOn (motive := fun t : State => t.now = s.now) _ _ rfl fun t ht r _ => ?_
  dsimp only
  split
  · exact ht
  · split <;> simp [ht]

theorem State.resourceWindow_now (s : State) (x : Resource) : (s.resourceWindow x).now = s.now := by
  unfold State.resourceWindow
  extract_lets l sum R D was s₁ overc s₂ cap s₃
  have h₁ : s₁.now = s.now := by dsimp only [s₁]; split <;> simp
  have h₃ : s₃.now = s₂.now := by dsimp only [s₃]; split <;> rfl
  rw [State.setFactors_now, h₃, ← h₁]
  rfl

theorem State.resourceWindows_now (l : List Resource) (s : State) : (l.foldl State.resourceWindow s).now = s.now :=
  List.foldlRecOn (motive := fun t : State => t.now = s.now) l _ rfl fun t ht x _ => (t.resourceWindow_now x).trans ht

theorem State.beginWindow_now (s : State) : s.beginWindow.now = s.now :=
  State.resourceWindows_now _ s.noteD.settleResvs

theorem State.beginWindow_window (s : State) : s.beginWindow.ledger.window = s.now / 1000 + 1 :=
  congrArg (· / 1000 + 1) (State.resourceWindows_now _ s.noteD.settleResvs)

theorem State.grant_basin (s : State) (b : Nat) :
    (s.grant.basin b).used = 0 ∧ (s.grant.basin b).lcr = 0 ∧ (s.grant.basin b).mnt = 0 ∧ (s.grant.basin b).patrolDone = false := by
  unfold State.basin State.grant
  rw [List.getD_eq_getElem?_getD, List.getElem?_map]
  cases s.basins[b]? <;> exact ⟨rfl, rfl, rfl, rfl⟩

theorem exec_windowStart_begun (hcore : s.core = true) (h : s.ledger.window = s.now / 1000 + 1) :
    exec .windowStart s = .next (finish s s) := by
  show execWindowStart s = _
  exact run_on hcore (if_pos h)

theorem exec_windowStart_due (hcore : s.core = true) (h : s.ledger.window ≠ s.now / 1000 + 1) :
    exec .windowStart s = .next (finish s s.beginWindow) := by
  show execWindowStart s = _
  exact run_on hcore (if_neg h)

/-- Settles O55: the windows' tokens are granted last, and nothing before that moves the clock. -/
theorem windowsStartAtMicroseconds : Obligations.WindowsStartAtMicroseconds := by
  refine fun s hcore => ⟨exec_windowStart_begun hcore, fun h => ⟨_, exec_windowStart_due hcore h, ?_, ?_, ?_⟩⟩
  · exact State.beginWindow_window s
  · exact congrArg (· / 1000 * 1000) (State.beginWindow_now s)
  · exact State.grant_basin _
end

end Sys2Proof.Machine
end

section
/-! Requests to a function's registers (R117, R118, R123). -/
namespace Sys2Proof.Machine
open Sys2Proof

theorem not_not_eq_true {b : Bool} (h : b = true) : ¬(!b) = true := by simp [h]

section
variable {s t : State} {on : State → Bool} {m : Nat} {ide read : Bool} {f : State → State}

/-- A request to a BAR that arrives as TDISP asks has its effect. -/
theorem barRun_on (hon : on s = true) (hoff : s.offStream m ide = false) (e : f s = t) :
    barRun on m ide read s f = .next (finish s t) :=
  run_on hon ((if_neg (ne_true_of_eq_false hoff)).trans e)

/-- One that does not is noted as an Unsupported Request and does nothing else. -/
theorem barRun_offStream (hon : on s = true) (hoff : s.offStream m ide = true) :
    barRun on m ide false s f = .next (finish s (s.updFn m fun x => { x with urLogged := true })) :=
  run_on hon (if_pos hoff)

/-- A read that does not finds all ones. -/
theorem barRun_offStream_read (hon : on s = true) (hoff : s.offStream m ide = true) :
    barRun on m ide true s f = .next (finish s
      { s.updFn m (fun x => { x with urLogged := true }) with readData := 2 ^ 64 - 1 }) :=
  run_on hon (if_pos hoff)

/-- The sizes that ENABLE admits (R139). -/
def Mailbox.sizesGood (b : Mailbox) : Prop :=
  4 ≤ b.sqSize ∧ b.sqSize ≤ b.cqSize ∧ b.cqSize ≤ 12 ∧ 4 ≤ b.eqSize ∧ b.eqSize ≤ 12

theorem State.mbxEnable_of_good (hopen : s.mbxOpen m = true) (hoff : (s.mb m).enable = false) (h : (s.mb m).sizesGood) :
    s.mbxEnable m = ((s.updMb m fun b => { b with
      enable := true, ready := true, sqHead := 0, cqHead := 0, eqHead := 0, cq := [], cqCount := 0, eq := [], eqCount := 0,
      lost := 0 }).flush m).destroyDue := by
  unfold State.mbxEnable
  refine (if_neg (by simp [hopen, hoff])).trans (if_pos ?_)
  unfold Mailbox.sizesGood at h
  simp only [Bool.and_eq_true, decide_eq_true_iff]
  omega

theorem State.mbxEnable_of_bad (hopen : s.mbxOpen m = true) (hoff : (s.mb m).enable = false) (h : ¬(s.mb m).sizesGood) :
    s.mbxEnable m = s.updMb m fun b => { b with enable := true, ready := false, cfgErr := true, lost := 0 } := by
  unfold State.mbxEnable
  refine (if_neg (by simp [hopen, hoff])).trans (if_neg ?_)
  unfold Mailbox.sizesGood at h
  simp only [Bool.and_eq_true, decide_eq_true_iff]
  omega
end

/-- Settles O10: each register's write by whether its index lies below the ring's entry count, ENABLE by its sizes. -/
theorem mailboxRegisterWrites : Obligations.MailboxRegisterWrites := by
  refine ⟨fun m v ide s hcore hopen hoff => ?indices, fun m ide s hcore hopen hoff => ?enable,
    fun m v ide s hcore hkeeper hsusp hoff hen => ?latched, fun m i v s hcore hoff hi => ?refused⟩
  case indices =>
    have hshut : ¬(!s.mbxOpen m) = true := not_not_eq_true hopen
    refine ⟨fun h => ?_, fun h => ?_, fun h => ?_, fun h => ?_, fun h => ?_, fun h => ?_⟩
    · show execMbxSqTailWrite m v ide s = _
      exact barRun_on (keeper_of_core hcore) hoff ((if_pos hcore).trans ((if_neg hshut).trans (if_neg (Nat.not_le.2 h))))
    · show execMbxSqTailWrite m v ide s = _
      exact barRun_on (keeper_of_core hcore) hoff ((if_pos hcore).trans ((if_neg hshut).trans (if_pos h)))
    · show execMbxCqHeadWrite m v ide s = _
      exact barRun_on hcore hoff ((if_neg hshut).trans (if_neg (Nat.not_le.2 h)))
    · show execMbxCqHeadWrite m v ide s = _
      exact barRun_on hcore hoff ((if_neg hshut).trans (if_pos h))
    · show execMbxEqHeadWrite m v ide s = _
      exact barRun_on hcore hoff ((if_neg hshut).trans (if_neg (Nat.not_le.2 h)))
    · show execMbxEqHeadWrite m v ide s = _
      exact barRun_on hcore hoff ((if_neg hshut).trans (if_pos h))
  case enable =>
    refine ⟨fun hlow h4 hcq hcq12 heq heq12 => ?_, fun hlow hbad => ?_, ?_⟩
    · show execMbxEnable m ide s = _
      exact barRun_on hcore hoff (State.mbxEnable_of_good hopen hlow ⟨h4, hcq, hcq12, heq, heq12⟩)
    · show execMbxEnable m ide s = _
      refine barRun_on hcore hoff (State.mbxEnable_of_bad hopen hlow ?_)
      unfold Mailbox.sizesGood
      omega
    · show execMbxDisable m ide s = _
      exact barRun_on hcore hoff (if_pos hopen)
  case latched =>
    show execMbxSqTailWrite m v ide s = _
    exact barRun_on hkeeper hoff ((if_neg (ne_true_of_eq_false hcore)).trans ((if_pos hsusp).trans (if_pos hen)))
  case refused =>
    simp only [List.mem_cons, List.not_mem_nil, or_false] at hi
    rcases hi with rfl | rfl | rfl | rfl | rfl
    · show execMbxSqTailWrite m v false s = _
      exact barRun_offStream (keeper_of_core hcore) hoff
    · show execMbxCqHeadWrite m v false s = _
      exact barRun_offStream hcore hoff
    · show execMbxEqHeadWrite m v false s = _
      exact barRun_offStream hcore hoff
    · show execMbxEnable m false s = _
      exact barRun_offStream hcore hoff
    · show execMbxDisable m false s = _
      exact barRun_offStream hcore hoff

end Sys2Proof.Machine
end

section
/-! Entries taken, and the control processor (R146, R147, R151, R154 to R159). -/
namespace Sys2Proof.Machine
open Sys2Proof

section
variable {s : State} {m : Nat} {e : Block}

/-- Where the mailbox admits the next entry and the CP may take it, ENTRY_TAKE takes it and moves MBX_SQ_HEAD past it. -/
theorem exec_entryTake (hcore : s.core = true) (hposted : (s.mb m).posted = true) (hadm : s.admits m e = true)
    (hpoison : s.cmdPoison m e = false) (hcp : (s.mb m).idCheck e ≠ .new ∨ s.cpUp = true) :
    exec (.entryTake m e) s = .next (finish s (((s.take m e (s.cmdSlot m e)).updMb m fun b =>
      { b with sqHead := (b.sqHead + 1) % ringSize b.sqSize }).refuseDue m)) := by
  have hoffer : s.offerCmd m e = (s.take m e (s.cmdSlot m e), true) := by
    have hnew : ((s.mb m).idCheck e == .new && !s.cpUp) = false := by
      rcases hcp with h | h
      · rw [beq_eq_false_iff_ne.2 h, Bool.false_and]
      · rw [h, Bool.not_true, Bool.and_false]
    simp only [State.offerCmd, hpoison, State.offer, hadm, hnew, Bool.not_true, Bool.false_eq_true, if_false]
  show execEntryTake m e s = _
  refine run_on hcore ?_
  simp only [State.takeNext, hposted, hoffer, Bool.not_true, Bool.false_eq_true, if_false]

/-- The command whose turn it is is answered where a check fails, and then the next. -/
theorem State.refuseDue_of_turn {t : Taken} (hturn : (s.mb m).turn = some t) (hcp : s.cpReads = true) (hdone : t.done = none) :
    s.refuseDue m = match precheck s m t.entry with
      | some (st, res) => State.refuseN m ((s.mb m).taken.length - 1) (s.complete ⟨m, eId t.entry⟩ st res)
      | none => s := by
  have hpos : 0 < (s.mb m).taken.length := List.length_pos_of_mem (List.mem_of_find?_eq_some hturn)
  unfold State.refuseDue
  generalize (s.mb m).taken.length = n at hpos ⊢
  cases n with
  | zero => exact absurd hpos (lt_irrefl 0)
  | succ n =>
    rw [State.refuseN, hturn]
    simp only [hcp, hdone, Bool.not_true, Option.isSome_none, Bool.or_self, Bool.false_eq_true, if_false, Nat.add_sub_cancel]
      <;> rfl

theorem State.refuseDue_idle (h : (s.mb m).turn = none ∨ s.cpReads = false) : s.refuseDue m = s := by
  unfold State.refuseDue
  cases (s.mb m).taken.length with
  | zero => rfl
  | succ n =>
    rw [State.refuseN]
    split
    · rfl
    · next t ht =>
      have hcp : s.cpReads = false := h.resolve_left (by rw [ht]; exact Option.some_ne_none t)
      rw [hcp]
      exact if_pos rfl
end

/-- Settles O11: what the entry's ID says, and the turn's refusals. -/
theorem entryTaken : Obligations.EntryTaken := by
  refine ⟨fun m e s hcore hposted hadm hpoison => ⟨fun hid hcp => ?_, fun c hid => ?_, fun hid => ?_⟩,
    fun m s => ⟨fun t hturn hcp hdone => ⟨fun st res hpre => ?_, fun hpre => ?_⟩, State.refuseDue_idle⟩⟩
  · rw [exec_entryTake hcore hposted hadm hpoison (.inr hcp), State.take, hid]
  · rw [exec_entryTake hcore hposted hadm hpoison (.inl (by rw [hid]; exact IdCheck.noConfusion)), State.take, hid]
  · rw [exec_entryTake hcore hposted hadm hpoison (.inl (by rw [hid]; exact IdCheck.noConfusion)), State.take, hid]
  · rw [State.refuseDue_of_turn hturn hcp hdone, hpre]
  · rw [State.refuseDue_of_turn hturn hcp hdone, hpre]

/-- Settles O14: each row under its condition. -/
theorem processorAndCoalescingRows : Obligations.ProcessorAndCoalescingRows := by
  refine ⟨fun m s hcore _ => ?cq, fun m s hcore _ => ?eq, fun s hcore hup hhalt hbeat => ?heartbeat,
    fun s hcore hup => ?exception, fun s hcore hup hhalt hbeat => ?watchdog, fun s hcore hbar hup hfailed => ?restart⟩
  case cq =>
    show execEvtCoalTimer m 0 s = _
    exact run_on hcore (by simp)
  case eq =>
    show execEvtCoalTimer m 1 s = _
    exact run_on hcore (by simp)
  case heartbeat =>
    show execCpHeartbeatTick s = _
    exact run_on hcore (if_pos (by rw [hup, bne_iff_ne.2 hhalt, decide_eq_true hbeat]; rfl))
  case exception =>
    show execCpException s = _
    exact run_on hcore (if_pos hup)
  case watchdog =>
    show execCpWatchdogExpiry s = _
    exact run_on hcore (if_pos (by rw [hup, hhalt, decide_eq_true hbeat]; rfl))
  case restart =>
    show execCpRestartDone s = _
    exact run_on hcore (if_pos (by rw [hbar, hup, hfailed]; rfl))

end Sys2Proof.Machine
end

section
/-! The host link and the trusted interfaces (R81, R110 to R123, R417, R456). -/
namespace Sys2Proof.Machine
open Sys2Proof

theorem functions_enabled (l : List Fn) (n : Nat) : (l.mapIdx fun i (x : Fn) =>
      (if i != 0 && i ≤ n then { x with enabled := true } else x)) =
    l.mapIdx fun i (x : Fn) => (if i ≠ 0 ∧ i ≤ n then { x with enabled := true } else x) := by
  simp only [Bool.and_eq_true, bne_iff_ne, decide_eq_true_iff]

/-- Settles O15: each row under its condition. -/
theorem hostLinkRows : Obligations.HostLinkRows := by
  refine ⟨fun s hcore hperst hup hrise => ?train, fun s width rate flit hcore htrain hwidth hlow hhigh hflit => ?trained,
    fun s n ari hcore hn hvfs => ?vfSet, fun s hcore => ?vfClear, fun s m shift hcore hlow hhigh hm => ?resize,
    fun s m vector ide hcore => ⟨fun hoff => ?unmask, fun hoff => ?refused⟩, fun s master hcore hup => ?ptm⟩
  case train =>
    show execPcieLinkTrainStart s = _
    exact run_on hcore (if_pos (by rw [hperst, hup, decide_eq_true hrise]; rfl))
  case trained =>
    show execPcieLinkTrained width rate flit s = _
    refine run_on hcore (if_pos ?_)
    simp only [Bool.and_eq_true, Bool.or_eq_true, decide_eq_true_iff, List.contains_iff_mem, bne_iff_ne]
    exact ⟨⟨⟨⟨htrain, hwidth⟩, hlow⟩, hhigh⟩, (em (rate = 4)).symm.imp id hflit⟩
  case vfSet =>
    show execVfEnableSet n ari s = _
    refine run_on hcore ((if_neg ?_).trans (by rw [functions_enabled]))
    rw [hvfs, decide_eq_false (Nat.not_lt.2 hn)]
    exact Bool.false_ne_true
  case vfClear =>
    show execVfEnableClear s = _
    exact run_on hcore rfl
  case resize =>
    show execBar2Resize m shift s = _
    refine run_on hcore (if_neg ?_)
    simp only [Bool.or_eq_true, decide_eq_true_iff]
    omega
  case unmask =>
    show execMsixUnmask m vector ide s = _
    exact barRun_on hcore hoff rfl
  case refused =>
    show execMsixUnmask m vector ide s = _
    exact barRun_offStream hcore hoff
  case ptm =>
    show execPtmDialogue master s = _
    exact run_on hcore (if_pos hup)

/-- A configuration request to an enabled function once BAR0 is valid. -/
theorem exec_configurationRequest {s : State} {m : Nat} (reg : CfgReg) (write : Option (BitVec 32)) (forbidden : Bool)
    (hkeeper : s.keeper = true) (hup : s.hif.up = true) (hbar : s.bar0Valid = true) (hen : (s.fn m).enabled = true) :
    exec (.configurationRequest m reg write forbidden) s = .next (finish s (match write with
      | none => { s with readData := s.cfgRead m reg }
      | some w =>
        let s := { s.cfgWrite m reg w.toNat with readData := 0 }
        if forbidden then s.updFn m fun x => if x.tdi = 1 || x.tdi = 2 then { x with tdi := 3 } else x else s)) := by
  show execConfigurationRequest m reg write forbidden s = _
  refine run_on hkeeper ((if_neg (not_not_eq_true hup)).trans ((if_neg (not_not_eq_true hbar)).trans
    ((if_neg (not_not_eq_true hen)).trans ?_)))
  cases write <;> rfl

theorem Fn.atReset_vecs {n : Nat} (h : n ≠ 0) : (Fn.atReset n).vecs = List.replicate 32 {} := by
  simp [Fn.atReset, h]

/-- A function-level reset of an enabled VF: its keys where its TDI is locked, its tags, its configuration, then its partition. -/
theorem exec_vfFlr {s : State} {n : Nat} (hcore : s.core = true) (hn : n ≠ 0) (hen : (s.fn n).enabled = true) :
    exec (.vfFlr n) s = .next (finish s (
      let keys : State := if (s.fn n).tdi = 0 then s else s.updFn n fun x => { x with ideKeys := [], ideUp := false }
      let lost : State := (keys.resetMaster 3 n).updFn n fun x =>
        { x with vecs := List.replicate 32 {}, dstate := 0, urLogged := false }
      if (s.part (n - 1)).exist then
        ((lost.updMb n fun b => { b with ready := false }).updPart (n - 1) fun p =>
          { p with stopTdi := p.stopTdi || (s.fn n).tdi != 0 }).partReset (n - 1)
      else (lost.updMb n fun _ => {}).updFn n fun x => { x.lose n with tdi := 0 })) := by
  have hgo : ¬(decide (n = 0) || !(s.fn n).enabled) = true := by simp [hn, hen]
  show execVfFlr n s = _
  refine run_on hcore ((if_neg hgo).trans ?_)
  by_cases h : (s.fn n).tdi = 0
  · simp only [h, bne_self_eq_false, Bool.false_eq_true, if_false, if_true, Fn.atReset_vecs hn]
    rfl
  · simp only [h, bne_iff_ne.2 h, if_false, if_true, Fn.atReset_vecs hn]
    rfl

/-- Settles O16: each row under its condition. -/
theorem trustedInterfaceRows : Obligations.TrustedInterfaceRows := by
  refine ⟨fun s n hcore hn hen => ⟨fun hpart => ?reset, fun hpart => ?cleared⟩, fun s f key hsol => ⟨?prog, ?go, ?stop⟩,
    fun s n hsol hlow hhigh htdi hpart hconf hide => ?lock, fun s n hsol htdi => ?start,
    fun s n hsol hlow hhigh hpart => ?stopReset, fun s n hsol hlow hhigh hpart => ?stopAlone,
    fun s m reg w hkeeper hup hbar hen => ⟨?read, ?write, ?forbidden⟩, fun s n => ⟨rfl, rfl, rfl, rfl, rfl⟩⟩
  case reset => exact (exec_vfFlr hcore hn hen).trans (by simp only [hpart, if_true])
  case cleared => exact (exec_vfFlr hcore hn hen).trans (by simp only [hpart, Bool.false_eq_true, if_false])
  case prog =>
    show execIdeKmKeyProg f key s = _
    exact run_on hsol rfl
  case go =>
    show execIdeKmKeySetGo f s = _
    exact run_on hsol rfl
  case stop =>
    show execIdeKmKeySetStop f s = _
    exact run_on hsol rfl
  case lock =>
    show execLockInterface n s = _
    exact run_on hsol (if_pos (by rw [decide_eq_true hlow, decide_eq_true hhigh, htdi, hpart, hconf, hide]; rfl))
  case start =>
    show execStartInterface n s = _
    exact run_on hsol (if_pos htdi)
  case stopReset =>
    show execStopInterface n s = _
    exact run_on hsol ((if_neg (by simp; omega)).trans (if_pos hpart))
  case stopAlone =>
    show execStopInterface n s = _
    exact run_on hsol ((if_neg (by simp; omega)).trans (if_neg (ne_true_of_eq_false hpart)))
  case read => exact exec_configurationRequest reg none false hkeeper hup hbar hen
  case write => exact exec_configurationRequest reg (some w) false hkeeper hup hbar hen
  case forbidden => exact exec_configurationRequest reg (some w) true hkeeper hup hbar hen

end Sys2Proof.Machine
end

section
/-! Clocks and voltages (R14 to R21, R54, R55). -/
namespace Sys2Proof.Machine
open Sys2Proof

theorem le_foldl_max {α : Type} (f : α → Nat) (l : List α) (n : Nat) : n ≤ l.foldl (fun v a => max v (f a)) n :=
  List.foldlRecOn (motive := fun v => n ≤ v) l _ le_rfl fun _ h _ _ => h.trans (le_max_left ..)

/-- A Plain's frequency setting after a row of its generator: one step toward the goal, at least 250 ns after the last. -/
def Plain.stepped (x : Plain) (now : Nat) : Plain :=
  let goal := min x.target x.limit
  if !x.locked || x.current = goal || !x.stepAt.all (fun t => t + 250 ≤ now) then x
  else { x with current := if x.current < goal then x.current + 1 else x.current - 1, stepAt := some now }

theorem exec_plainFreqStep {s : State} (p : Nat) (hcore : s.core = true) :
    exec (.plainFreqStep p) s = .next (finish s (s.updPlain p fun x => x.stepped s.now)) := by
  show execPlainFreqStep p s = _
  exact run_on hcore rfl

theorem Plain.stepped_eq (x : Plain) (now : Nat) : x.stepped now =
    if x.locked = true ∧ (∀ t ∈ x.stepAt, t + 250 ≤ now) ∧ x.current < min x.target x.limit then
      { x with current := x.current + 1, stepAt := some now }
    else if x.locked = true ∧ (∀ t ∈ x.stepAt, t + 250 ≤ now) ∧ min x.target x.limit < x.current then
      { x with current := x.current - 1, stepAt := some now }
    else x := by
  have hdue := all_due_iff (o := x.stepAt) (d := 250) (now := now)
  unfold Plain.stepped
  generalize x.stepAt.all (fun t => decide (t + 250 ≤ now)) = due at hdue
  simp only [← hdue]
  generalize min x.target x.limit = goal
  rcases lt_trichotomy x.current goal with hlt | heq | hgt
  · cases x.locked <;> cases due <;> simp [hlt, hlt.ne, hlt.not_gt]
  · cases x.locked <;> cases due <;> simp [heq]
  · cases x.locked <;> cases due <;> simp [hgt, hgt.ne', hgt.not_gt]

/-- Settles O17: each row under its condition; a step of the generator by how the setting compares with its goal. -/
theorem frequencyAndVoltageRows : Obligations.FrequencyAndVoltageRows := by
  refine ⟨fun s p code hcore hcp hoff h104 hcap hlimit => ?target, fun s q steps hcore hq hcp hchip hen havs => ?voltage,
    fun s q => le_foldl_max .., fun s q hcore hq hmoving hat => ?settled, fun s q hcore hq hmoving hfault hat => ?timeout,
    fun s p hcore => ?step, fun s p haon hgood hen => ?lock⟩
  case target =>
    have hgo : ¬(!s.cpUp || (s.plain p).state == .off || decide (104 < code) || decide (s.prof.freqCap.getD p 0 < code) ||
        decide ((s.plain p).limit < code)) = true := by
      rw [hcp, beq_false_of_ne hoff, decide_eq_false (Nat.not_lt.2 h104), decide_eq_false (Nat.not_lt.2 hcap),
        decide_eq_false (Nat.not_lt.2 hlimit)]
      exact Bool.false_ne_true
    refine ⟨fun hserves => ?_, fun hraise hserves => ?_⟩
    · show execCpFreqTargetSet p code s = _
      exact run_on hcore ((if_neg hgo).trans (if_neg (by simpa using hserves)))
    · show execCpFreqTargetSet p code s = _
      exact run_on hcore ((if_neg hgo).trans (if_pos (by simp [hraise, hserves])))
  case voltage =>
    refine ⟨fun hfloor htop => ?_, fun hbad => ?_⟩
    · show execAvsVoltageWrite q steps s = _
      exact run_on hcore (if_pos (by simp [hq, hcp, hchip, hen, havs, hfloor, htop]))
    · show execAvsVoltageWrite q steps s = _
      refine run_on hcore (if_neg ?_)
      simp only [Bool.and_eq_true, decide_eq_true_iff]
      omega
  case settled =>
    show execAvsSettled q s = _
    exact run_on hcore (if_pos (by rw [decide_eq_true hq, hmoving, decide_eq_true hat]; rfl))
  case timeout =>
    show execAvsSettleTimeout q s = _
    exact run_on hcore (if_pos (by rw [decide_eq_true hq, hmoving, hfault, decide_eq_true hat]; rfl))
  case step =>
    rw [exec_plainFreqStep p hcore]
    simp only [Plain.stepped_eq]
  case lock =>
    show execGeneratorLock p s = _
    exact run_on haon (if_pos (by rw [hgood, hen]; rfl))

/-- An estimate that is due, by whether it lies more than 500 ppm off. -/
theorem exec_refFreqEstimate {s : State} (e : Int) (haon : s.aon = true) (hdue : ∀ t ∈ s.clk.estAt, t + 10000 ≤ s.now) :
    exec (.refFreqEstimate e) s = .next (finish s (
      let u : State := { s with clk :=
        { s.clk with offset := e * 50, estAt := some s.now, outside := s.clk.outside + 1, goodSince := none } }
      if (decide (e < -10) || decide (10 < e)) = true then (if 10 ≤ s.clk.outside + 1 then u.refLoss else u)
      else { s with clk := { s.clk with
        offset := e * 50, estAt := some s.now, outside := 0, lost := false, goodSince := some (s.clk.goodSince.getD s.now) } })) := by
  show execRefFreqEstimate e s = _
  exact run_on haon (if_neg (not_not_eq_true (all_due_iff.2 hdue)))

/-- Settles O18: an estimate by its deviation and the count before it, the other rows under their conditions. -/
theorem referenceRows : Obligations.ReferenceRows := by
  refine ⟨fun s e haon hdue => ?estimate, fun s gap haon => ⟨fun h => ?loss, fun h => ?noLoss⟩, fun s => rfl,
    fun s t haon hhold hlost hgood ht => ?qualified, fun s haon hhold hqual hlost => ?relock⟩
  case estimate =>
    rw [exec_refFreqEstimate e haon hdue]
    refine ⟨fun hout hfew => ?_, fun hout hmany => ?_, fun hlow hhigh => ?_⟩
    · rw [if_pos (by simpa using hout), if_neg (by omega)]
    · rw [if_pos (by simpa using hout), if_pos (by omega)]
    · rw [if_neg (by simp; omega)]
  case loss =>
    show execRefLossDeclared gap s = _
    exact run_on haon (if_pos h)
  case noLoss =>
    show execRefLossDeclared gap s = _
    exact run_on haon (if_neg (Nat.not_le.2 h))
  case qualified =>
    show execRefQualified s = _
    exact run_on haon (if_pos (by rw [hhold, hlost, any_due_iff.2 ⟨t, hgood, ht⟩]; rfl))
  case relock =>
    show execRelockComplete s = _
    exact run_on haon (if_pos (by rw [hhold, hqual, hlost]; rfl))

end Sys2Proof.Machine
end

section
/-! Device time and the pulse per second (R27 to R31). -/
namespace Sys2Proof.Machine
open Sys2Proof

/-- An edge that the input did not hold before: it is stamped, and what follows goes by the mode. -/
theorem exec_ppsInEdge {s : State} {rising : Bool} (haon : s.aon = true) (hedge : rising ≠ s.time.edge) :
    exec (.ppsInEdge rising) s = .next (finish s (
      let t : State := { s with time := { s.time with stamp := s.now, ppsSeen := true, ppsLost := false, lastEdge := s.now } }
      let mode := if s.timeRoot = s.chip then s.time.mode else min s.time.mode 1
      if mode = 2 then t.slewBy (toSecond s.now)
      else if mode = 3 then
        if s.time.next < s.now && !s.streams.isEmpty then
          { t with time := { t.time with mode := 2, slew := (s.time.next : Int) - s.now } }
        else { t.loadTime s.time.next with time :=
          { (t.loadTime s.time.next).time with mode := 2, stamp := (t.loadTime s.time.next).now, stepDone := true } }
      else t)) := by
  show execPpsInEdge rising s = _
  exact run_on haon (if_neg (by simpa using hedge))

/-- Settles O19: an edge by the mode it finds, the other rows under their conditions. -/
theorem pulsePerSecondRows : Obligations.PulsePerSecondRows := by
  refine ⟨fun s rising haon hedge => ?edge, fun s haon hmode hlost hlate => ?lost, fun s haon hen hout hsecond => ?rise,
    fun s haon hout => ⟨fun h => ?fall, fun h => ?held⟩⟩
  case edge =>
    rw [exec_ppsInEdge haon hedge]
    intro t mode
    have hmode : (if s.timeRoot = s.chip then s.time.mode else min s.time.mode 1) = mode := rfl
    dsimp only
    rw [hmode]
    clear_value mode
    refine ⟨fun h2 h3 => ?_, fun h2 => ?_, fun h3 hback hopen => ?_, fun h3 hfwd hnext => ?_⟩
    · rw [if_neg h2, if_neg h3]
    · rw [if_pos h2]
    · subst h3
      rw [if_neg (by decide), if_pos rfl, if_pos (by simp [hback, hopen])]
    · subst h3
      rw [if_neg (by decide), if_pos rfl, if_neg (by simpa [or_iff_not_imp_left] using hfwd)]
      simp only [State.loadTime, Nat.mod_eq_of_lt hnext, add_sub_cancel]
      rfl
  case lost =>
    show execPpsLost s = _
    exact run_on haon (if_pos (by rw [bne_iff_ne.2 hmode, hlost, decide_eq_true hlate]; rfl))
  case rise =>
    show execPpsOutRise s = _
    refine run_on haon (if_pos ?_)
    rw [hen, hout, Bool.or_eq_true_iff.2 (hsecond.imp decide_eq_true decide_eq_true)]
    rfl
  case fall =>
    show execPpsOutFall s = _
    exact run_on haon (if_pos (by rw [hout, decide_eq_true h]; rfl))
  case held =>
    show execPpsOutFall s = _
    exact run_on haon (if_neg (by rw [hout, decide_eq_false (not_le.2 h)]; exact Bool.false_ne_true))

end Sys2Proof.Machine
end

section
/-! The rails in sequence (R46 to R51, R106). -/
namespace Sys2Proof.Machine
open Sys2Proof

section
variable {s : State} {ch : Nat}

@[simp] theorem State.sampled_boot (s : State) (ch : Nat) : (s.sampled ch).boot = s.boot := by
  unfold State.sampled
  split <;> rfl

@[simp] theorem State.sampled_sup (s : State) (ch : Nat) : (s.sampled ch).sup = s.sup := by
  unfold State.sampled
  split <;> rfl

/-- The head of the power-up judged good for its 100 µs. -/
theorem exec_railJudgedGood {rest : List Nat} (pins : BitVec 2) (regs : List RegConf) (haon : s.aon = true)
    (hseq : s.sup.seq = .up (ch :: rest)) (hen : (s.rail ch).enabled = true) (hramp : (s.rail ch).state = .ramping)
    (hgood : (s.rail ch).enabledAt + 100000 ≤ s.now) :
    exec (.railJudgedGood ch pins regs) s = .next (finish s (
      let g : State := (s.updRail ch fun r => { r with state := .good, judgedFrom := s.now }).sampled ch
      let t : State := (g.selectProfile pins.toNat).applyRails.configureRegs regs
      let u : State := if ch = 0 ∧ s.boot.stage = .rails ∧ s.sup.powerGood = false then
          { t with logs := { t.logs with boot := t.bootNumber }, sup := { t.sup with seq := .up t.upList } }
        else { g with sup := { g.sup with seq := .up rest } }
      match u.sup.seq with
      | .up (d :: _) => u.railOn d
      | _ => u.powerUpEnd)) := by
  show execRailJudgedGood ch pins regs s = _
  refine run_on haon ?_
  dsimp only
  rw [hseq]
  dsimp only
  rw [if_pos (by rw [hen, hramp, decide_eq_true hgood, decide_eq_true rfl]; rfl)]
  have hcond (g : State) (hb : g.boot = s.boot) (hs : g.sup = s.sup) :
      (decide (ch = 0) && g.boot.stage == .rails && !g.sup.powerGood) = true ↔
      ch = 0 ∧ s.boot.stage = .rails ∧ s.sup.powerGood = false := by
    simp [hb, hs, and_assoc]
  simp only [hcond (State.sampled (s.updRail ch fun r => { r with state := .good, judgedFrom := s.now }) ch)
    (State.sampled_boot ..) (State.sampled_sup ..)]
    <;> rfl

theorem State.hasFallen_of_window (h : (s.rail ch).cfg.window = true) (reading : Nat) :
    s.hasFallen ch reading = decide (reading * 2 < min (s.rail ch).cfg.setpoint 320) := if_pos h

theorem State.hasFallen_of_no_sensor (h : (s.rail ch).cfg.window = false) (hpmb : (s.rail ch).cfg.pmbAddr = 0)
    (hwait : (s.rail ch).enabledAt + (s.rail ch).cfg.offWait * 1000000 ≤ s.now) (reading : Nat) : s.hasFallen ch reading = true := by
  refine (if_neg (ne_true_of_eq_false h)).trans ?_
  rw [hpmb, decide_eq_true hwait]
  rfl

theorem exec_railFallen (reading : Nat) (haon : s.aon = true) (hfall : s.falling ch = true) :
    exec (.railFallen ch reading) s = .next (finish s (if s.hasFallen ch reading then s.seqNext else s)) := by
  show execRailFallen ch reading s = _
  exact run_on haon (by rw [hfall, Bool.true_and])

/-- A READ_VOUT of the head of the power-down, 1 ms after the last. -/
theorem exec_pmbusVoutPoll (mv : Nat) (acked : Bool) (haon : s.aon = true) (hfall : s.falling ch = true)
    (hwindow : (s.rail ch).cfg.window = false) (hpmb : (s.rail ch).cfg.pmbAddr ≠ 0)
    (hdue : ∀ t ∈ (s.rail ch).voutAt, t + 1000000 ≤ s.now) :
    exec (.pmbusVoutPoll ch mv acked) s = .next (finish s (
      let u : State := (s.onBus (s.pmbCmd ch 0x8B mv)).updRail ch fun r => { r with voutAt := some s.now }
      if !acked then u.pmbFail ch
      else
        let v := u.updRail ch fun r => { r with tried := false }
        if mv * 8 < min ((s.rail ch).cfg.setpoint * 5) 1600 then v.seqNext else v)) := by
  show execPmbusVoutPoll ch mv acked s = _
  refine run_on haon (if_neg ?_)
  rw [hfall, hwindow, decide_eq_false hpmb, all_due_iff.2 hdue, Bool.or_true]
  exact Bool.false_ne_true
end

/-- Settles O20: the head of the sequence on the way up, and on the way down by what says that it has fallen. -/
theorem railSequenceRows : Obligations.RailSequenceRows := by
  refine ⟨fun s ch pins regs rest haon hseq hen hramp hgood hch => ?up,
    fun s pins regs rest haon hseq hen hramp hgood hstage hpg => ?first,
    fun s ch rest haon hseq hen hramp hlate => ?onTimeout, fun s ch reading haon hfall => ⟨fun hwin h => ?fallen, fun hwin h => ?still,
      fun hwin hpmb hwait => ?waited⟩, fun s ch mv haon hfall hwin hpmb hdue => ⟨?nak, fun h => ?voutLow, fun h => ?voutHigh⟩,
    fun s ch l goal haon hseq hfall hlate => ?offTimeout, fun s c l goal haon hseq hdue => ?record⟩
  case up =>
    rw [exec_railJudgedGood pins regs haon hseq hen hramp hgood]
    dsimp only
    rw [if_neg fun h => hch h.1]
    cases rest <;> rfl
  case first =>
    rw [exec_railJudgedGood pins regs haon hseq hen hramp hgood]
    dsimp only
    rw [if_pos ⟨rfl, hstage, hpg⟩]
    generalize State.upList _ = l
    cases l <;> rfl
  case onTimeout =>
    show execRailOnTimeout ch s = _
    refine run_on haon ?_
    dsimp only
    rw [hseq]
    exact if_pos (by rw [hen, hramp, decide_eq_true hlate, decide_eq_true rfl]; rfl)
  case fallen => rw [exec_railFallen reading haon hfall, State.hasFallen_of_window hwin, if_pos (decide_eq_true h)]
  case still =>
    rw [exec_railFallen reading haon hfall, State.hasFallen_of_window hwin, decide_eq_false (Nat.not_lt.2 h)]
    exact congrArg _ (congrArg _ (if_neg Bool.false_ne_true))
  case waited => rw [exec_railFallen reading haon hfall, State.hasFallen_of_no_sensor hwin hpmb hwait, if_pos rfl]
  case nak => exact exec_pmbusVoutPoll mv false haon hfall hwin hpmb hdue
  case voutLow =>
    rw [exec_pmbusVoutPoll mv true haon hfall hwin hpmb hdue]
    dsimp only
    rw [if_neg (by decide), if_pos h]
  case voutHigh =>
    rw [exec_pmbusVoutPoll mv true haon hfall hwin hpmb hdue]
    dsimp only
    rw [if_neg (by decide), if_neg (Nat.not_lt.2 h)]
  case offTimeout =>
    show execRailOffTimeout ch s = _
    refine run_on haon ?_
    dsimp only
    rw [hseq]
    refine (if_pos (by rw [hfall, decide_eq_true hlate]; rfl)).trans ?_
    simp only [beq_iff_eq]
  case record =>
    show execRailFaultRecordWritten s = _
    refine run_on haon ?_
    dsimp only
    rw [hseq]
    refine (if_pos hdue).trans ?_
    simp only [Bool.and_eq_true, decide_eq_true_iff]

end Sys2Proof.Machine
end

section
/-! Rail faults (R36 to R41, R51 to R57, R466). -/
namespace Sys2Proof.Machine
open Sys2Proof

section
variable {s : State} {ch reading samples : Nat} {high : Bool}

theorem outside_of_lt {low hi : Nat} (h : reading < low) : outside low hi reading = some false := if_pos h
theorem outside_of_gt {low hi : Nat} (hle : low ≤ hi) (h : hi < reading) : outside low hi reading = some true :=
  (if_neg (by omega)).trans (if_pos h)

theorem outside_eq_none {low hi : Nat} : outside low hi reading = none ↔ low ≤ reading ∧ reading ≤ hi := by
  unfold outside
  grind

/-- Samples of VDD_AON, by whether they lie outside its window for 1.0 µs. -/
theorem exec_railWindowFault_aon (reading samples : Nat) (haon : s.aon = true) :
    exec (.railWindowFault 254 reading samples) s = .next (finish s (match outside 608 672 reading with
      | some high => if 1000 ≤ samples * 10 then
          s.faultDown { channel := 254, cause := b2n high, level := 3, reading := reading, stamp := s.now } else s
      | none => s)) := by
  show execRailWindowFault 254 reading samples s = _
  exact run_on haon (if_pos rfl)

/-- Samples outside the window of a judged rail, by whether they reach its filter time. -/
theorem exec_railWindowFault (samples : Nat) (haon : s.aon = true) (hch : ch ≠ 254) (hjudged : s.judged ch = true)
    (hwindow : (s.rail ch).cfg.window = true) (hout : outside (s.rail ch).low (s.rail ch).high reading = some high) :
    exec (.railWindowFault ch reading samples) s = .next (finish s (
      let ns := s.judgedNs ch (samples * 10)
      if (s.rail ch).cfg.filterNs ≤ ns then
        (s.updRail ch fun r => r.excursion s.now ns).railFaulted ch (b2n high) reading else s)) := by
  show execRailWindowFault ch reading samples s = _
  refine run_on haon ((if_neg hch).trans ((if_pos (by rw [hjudged, hwindow]; rfl)).trans ?_))
  rw [hout]

/-- A status word of a regulator that is due. -/
theorem exec_pmbusTelemetryPoll {w : RegStatus} (values : List Nat) (hpmb : s.pmb = true) (hch : w.channel < 16)
    (hreg : (s.rail w.channel).cfg.pmbAddr ≠ 0) (hdue : ∀ t ∈ (s.rail w.channel).polledAt, t + 10000000 ≤ s.now) :
    exec (.pmbusTelemetryPoll w values) s = .next (finish s (
      let u : State := ((s.onBus (s.pollTrans w values)).updRail w.channel fun r => { r with polledAt := some s.now }).statusWord w
      if w.acked then u.updRail w.channel fun r => { r with stale := false, telemetry := values.take 5 } else u)) := by
  show execPmbusTelemetryPoll w values s = _
  refine run_on hpmb (if_neg ?_)
  rw [all_due_iff.2 hdue, decide_eq_false hreg, decide_eq_false (Nat.not_le.2 hch), Bool.or_true]
  exact Bool.false_ne_true
end

/-- Settles O21: each row by how long its excursion, its low or its wait has lasted. -/
theorem railFaultRows : Obligations.RailFaultRows := by
  refine ⟨fun s reading samples haon => ⟨fun h hlong => ?aonLow, fun h hlong => ?aonHigh, fun h => ?aonGood⟩,
    fun s ch reading samples high haon hch hjudged hwindow hout => ⟨fun h => ?faulted, fun h => ?short, fun h10 h => ?glitch⟩,
    fun low high reading _ => outside_eq_none,
    fun s ch low haon hjudged hwindow => ⟨fun h => ?pg, fun h => ?pgShort⟩,
    fun s ch w haon hfrom hlong hruns hlevel => ?recurrence, fun s t haon hlevel hlong => ?level2,
    fun s ws hpmb hws => ?alert, fun s w values hpmb hch hreg hdue => exec_pmbusTelemetryPoll values hpmb hch hreg hdue,
    fun s ch hpmb hreg => exec_pmbusSclTimeout hpmb hreg⟩
  case aonLow =>
    rw [exec_railWindowFault_aon reading samples haon, outside_of_lt h]
    dsimp only
    rw [if_pos (by omega)]
    rfl
  case aonHigh =>
    rw [exec_railWindowFault_aon reading samples haon, outside_of_gt (by decide) h]
    dsimp only
    rw [if_pos (by omega)]
    rfl
  case aonGood =>
    rw [exec_railWindowFault_aon reading samples haon]
    rcases h with hin | hfew
    · rw [outside_eq_none.2 hin]
    · have hshort : ¬1000 ≤ samples * 10 := by omega
      cases outside 608 672 reading with
      | none => rfl
      | some high => dsimp only; rw [if_neg hshort]
  case faulted =>
    rw [exec_railWindowFault samples haon hch hjudged hwindow hout]
    dsimp only
    rw [RailCfg.filterNs, if_pos h]
    rfl
  case short =>
    rw [exec_railWindowFault samples haon hch hjudged hwindow hout]
    dsimp only
    rw [RailCfg.filterNs, if_neg (Nat.not_le.2 h)]
  case glitch =>
    show execRailGlitch ch reading samples s = _
    refine run_on haon (if_pos ?_)
    rw [hjudged, hwindow, hout, decide_eq_true h10, RailCfg.filterNs, decide_eq_true h]
    rfl
  case pg =>
    show execRailPgFault ch low s = _
    exact run_on haon (if_pos (by rw [hjudged, hwindow, RailCfg.filterNs, decide_eq_true h]; rfl))
  case pgShort =>
    show execRailPgFault ch low s = _
    refine run_on haon (if_neg ?_)
    rw [RailCfg.filterNs, decide_eq_false (Nat.not_le.2 h), Bool.and_false]
    exact Bool.false_ne_true
  case recurrence =>
    show execRecurrenceWindowEnd ch s = _
    refine run_on haon ?_
    rw [hfrom]
    exact if_pos (by rw [decide_eq_true hlong, decide_eq_true hruns, decide_eq_true hlevel]; rfl)
  case level2 =>
    show execLevel2Expiry s = _
    refine run_on haon ?_
    rw [hlevel]
    exact if_pos hlong
  case alert =>
    show execPmbAlert ws s = _
    refine run_on hpmb ?_
    have hall : (ws.filter fun w => decide (w.channel < 16) && (s.rail w.channel).cfg.pmbAddr != 0) = ws := by
      rw [List.filter_eq_self]
      intro w hw
      obtain ⟨hch, hreg⟩ := hws w hw
      rw [decide_eq_true hch, bne_iff_ne.2 hreg, Bool.and_self]
    dsimp only
    rw [hall]

end Sys2Proof.Machine
end

section
/-! The states and temperatures of a Plain (R60 to R69). -/
namespace Sys2Proof.Machine
open Sys2Proof

/-- Settles O22: each row under its condition. -/
theorem plainStateRows : Obligations.PlainStateRows := by
  refine ⟨fun s p hcore hstate hbusy => ?idle, fun s p hcore hstate hen hsince hbusy => ?ret, fun s p hcore hstate hexit => ?retExit,
    fun s p hcore hcp hp hstate howned => ?off, fun s p hcore hstate howned => ?powerUp⟩
  case idle =>
    show execPlainIdle p s = _
    exact run_on hcore (if_pos (by rw [hstate, hbusy]; rfl))
  case ret =>
    show execPlainRetEntry p s = _
    exact run_on hcore (if_pos (by rw [hstate, hen, decide_eq_true hsince, hbusy]; rfl))
  case retExit =>
    show execPlainRetExitDone p s = _
    exact run_on hcore (if_pos (by rw [hstate, hexit]; rfl))
  case off =>
    show execPlainOff p s = _
    exact run_on hcore (if_pos (by rw [hcp, decide_eq_true hp, bne_iff_ne.2 hstate, howned]; rfl))
  case powerUp =>
    show execPlainPowerUpDone p s = _
    exact run_on hcore (if_pos (by rw [hstate, howned]; rfl))

/-- The sensors of a Plain have power. -/
theorem State.sensed_of {s : State} {p : Nat} (haon : s.aon = true) (hp : p < 16) (hjudged : s.judged (3 + quadOf p) = true) :
    s.sensed p = true := by
  rw [State.sensed, haon, hjudged, decide_eq_true hp]
  rfl

/-- A sample that is due. -/
theorem exec_plainThermalSample {s : State} {p : Nat} {q : List Int} {t : Int} (hsensed : s.sensed p = true) (hmax : q.max? = some t)
    (hdue : ∀ u ∈ (s.plain p).sampledAt, u + 10000 ≤ s.now) :
    exec (.plainThermalSample p q) s = .next (finish s (
      let u : State := (s.updPlain p fun x => { x with sampledAt := some s.now }).thermal p t
      if 460 ≤ t then u.trip p t else u)) := by
  show execPlainThermalSample p q s = _
  refine run_on hsensed ?_
  rw [hmax]
  exact if_pos (all_due_iff.2 hdue)

/-- Settles O23: each row by the temperature that it reads and the time since its last step. -/
theorem plainThermalRows : Obligations.PlainThermalRows := by
  refine ⟨fun s p q t haon hp hjudged hmax hdue => ?sample, fun s p hcore hhot hat => ?limitDown,
    fun s p hcore hcool hlimit hat => ?limitUp, fun s p t hcore hduty hbelow ht => ?release,
    fun s p t hcore hduty hnot hbelow ht => ?clear, fun s p q haon hp hjudged hq => ?trip, fun s p q => rfl⟩
  case sample =>
    rw [exec_plainThermalSample (State.sensed_of haon hp hjudged) hmax hdue]
    exact ⟨fun h => by dsimp only; rw [if_neg (by omega)], fun h => by dsimp only; rw [if_pos h]⟩
  case limitDown =>
    show execPlainFreqLimitStep p s = _
    exact run_on hcore (if_pos (by rw [decide_eq_true hhot, decide_eq_true hat]; rfl))
  case limitUp =>
    have hnot : ¬400 ≤ (s.plain p).hottest := by omega
    show execPlainFreqLimitStep p s = _
    refine run_on hcore ((if_neg ?_).trans (if_pos ?_))
    · rw [decide_eq_false hnot]
      exact Bool.false_ne_true
    · rw [decide_eq_true hcool, decide_eq_true hlimit, decide_eq_true hat]
      rfl
  case release =>
    show execPlainThrottleRelease p s = _
    refine run_on hcore ((if_pos ?_).trans (if_pos hduty))
    rw [hduty, any_due_iff.2 ⟨t, hbelow, ht⟩]
    rfl
  case clear =>
    show execPlainThrottleRelease p s = _
    refine run_on hcore ((if_pos ?_).trans (if_neg hnot))
    rw [decide_eq_true hduty, any_due_iff.2 ⟨t, hbelow, ht⟩]
    rfl
  case trip =>
    show execPlainThermalTrip p q s = _
    exact run_on (State.sensed_of haon hp hjudged) (if_pos hq)

end Sys2Proof.Machine
end

section
/-! The chip's power states, its resets and its standby (R55, R70 to R76, R112, R468). -/
namespace Sys2Proof.Machine
open Sys2Proof

section
variable {s : State}

theorem State.qscEnds_of_settled (hrising : s.power.rising = true)
    (h : ∀ r ∈ s.rails, r.cfg.avs = true → r.enabled = true → r.moving = none) :
    s.qscEnds = { s with power := { s.power with chip := .active, waking := false, rising := false } }.emit [0] EV.powerState 2 0 0 := by
  refine if_pos ?_
  rw [hrising, Bool.true_and, List.all_eq_true]
  intro r hr
  have hr := h r hr
  cases havs : r.cfg.avs <;> cases hen : r.enabled <;> simp_all

theorem State.qscEnds_of_moving (h : ∃ r ∈ s.rails, r.cfg.avs = true ∧ r.enabled = true ∧ r.moving ≠ none) : s.qscEnds = s := by
  obtain ⟨r, hr, havs, hen, hmoving⟩ := h
  refine if_neg fun hall => hmoving ?_
  rw [Bool.and_eq_true, List.all_eq_true] at hall
  simpa [havs, hen] using hall.2 r hr

theorem exec_keeperBar0Access {m off : Nat} (write : Option (BitVec 32)) (hkeeper : s.keeper = true) (hsusp : s.suspended = true)
    (hen : (s.fn m).enabled = true) :
    exec (.keeperBar0Access m off write) s = .next (finish s (match write with
      | none => { s with readData := 2 ^ 32 - 1 }
      | some v =>
        if (doorbellAt m off).isSome then s.latchDoorbell m off v.toNat
        else if m = 0 && off = 0x60008 && bit v.toNat 0 then s.wake
        else s)) := by
  show execKeeperBar0Access m off write s = _
  refine run_on hkeeper ((if_neg ?_).trans ?_)
  · rw [hsusp, hen]
    exact Bool.false_ne_true
  · cases write <;> rfl

/-- What a low PERST_N does of a WARM, its stamp noted. -/
theorem State.warmReset_of_perst {t : State} (haon : t.aon = s.aon) (hpg : t.sup.powerGood = s.sup.powerGood) :
    (if t.aon && t.sup.powerGood then t.warmReset else t) =
      if s.aon = true ∧ s.sup.powerGood = true ∧ t.warmable = true then t.cutAll.warm else t := by
  rw [haon, hpg, State.warmReset]
  cases s.aon <;> cases s.sup.powerGood <;> simp
end

/-- Settles O24: each row under its condition. -/
theorem chipPowerRows : Obligations.ChipPowerRows := by
  refine ⟨fun s goal haon hseq => ?reached, fun s r haon hseq hentry => ?qsc, fun s hkeeper => ⟨?pmWake, fun v hv => ?wakeWrite⟩,
    fun s haon hchip hseq => ?pldmCold, fun s haon hchip => ?pldmWake, fun s hkeeper hwaking hchip hrising => ?qscWake,
    fun s hrising => ⟨State.qscEnds_of_settled hrising, State.qscEnds_of_moving⟩,
    fun s hkeeper hwaking hchip hseq hrail => ?stbyWake, fun s m off hkeeper hsusp hen => exec_keeperBar0Access none hkeeper hsusp hen,
    fun s m off v hkeeper hsusp hen => ⟨fun hdb => ?latched, fun hdb hm hoff hv => ?keeperWake⟩,
    fun s haon => ⟨?cold, ?stillOn, ?loss⟩, fun s haon => ⟨?powerOn, ?coldOff, ?pldmOff⟩, fun s haon hwarm => ?warm,
    fun s hkeeper => ?linkReset, fun s => ?perst, fun s t hlow => ?release⟩
  case reached =>
    show execChipStateReached s = _
    exact run_on haon (by dsimp only; rw [hseq])
  case qsc =>
    show execChipStateReached s = _
    exact run_on haon (by dsimp only; rw [hseq, hentry])
  case pmWake =>
    show execPciePmWake s = _
    exact run_on hkeeper rfl
  case wakeWrite =>
    show execPwrWakeWrite v s = _
    exact run_on hkeeper (if_pos hv)
  case pldmCold =>
    show execPldmSetStateEffecter s = _
    exact run_on haon (if_pos (by rw [hchip, hseq]; rfl))
  case pldmWake =>
    show execPldmSetStateEffecter s = _
    exact run_on haon (if_neg (by rw [beq_false_of_ne hchip]; exact Bool.false_ne_true))
  case qscWake =>
    show execChipWake s = _
    exact run_on hkeeper ((if_neg (not_not_eq_true hwaking)).trans
      ((if_pos (beq_iff_eq.2 hchip)).trans (if_neg (ne_true_of_eq_false hrising))))
  case stbyWake =>
    show execChipWake s = _
    refine run_on hkeeper ((if_neg (not_not_eq_true hwaking)).trans ((if_neg ?_).trans (if_pos ?_)))
    · rw [hchip]
      decide
    · rw [hchip, hseq, hrail]
      rfl
  case latched => exact (exec_keeperBar0Access (some v) hkeeper hsusp hen).trans (by
      dsimp only; rw [if_pos hdb, State.latchDoorbell, if_pos hen])
  case keeperWake =>
    refine (exec_keeperBar0Access (some v) hkeeper hsusp hen).trans ?_
    dsimp only
    rw [if_neg (ne_true_of_eq_false hdb), if_pos (by rw [hm, hoff, hv]; rfl)]
  case cold =>
    show execColdReset s = _
    exact run_on haon rfl
  case stillOn =>
    show execVddAonPowerOn s = _
    exact run_on rfl (if_pos haon)
  case loss =>
    show execVddAonPowerLoss s = _
    exact run_on haon rfl
  case powerOn =>
    show execVddAonPowerOn s = _
    exact run_on rfl (if_neg (ne_true_of_eq_false haon))
  case coldOff =>
    show execColdReset s = _
    exact run_off haon
  case pldmOff =>
    show execPldmSetStateEffecter s = _
    exact run_off haon
  case warm =>
    show execWarmReset s = _
    exact run_on haon (if_pos hwarm)
  case linkReset =>
    show execPcieLinkReset s = _
    exact run_on hkeeper rfl
  case perst =>
    show execPerstNAssert s = _
    refine run_on rfl ?_
    exact State.warmReset_of_perst (t := { s with power := { s.power with perstLow := some (s.power.perstLow.getD s.now) } }) rfl rfl
  case release =>
    show execPerstNRelease s = _
    refine run_on rfl ?_
    rw [hlow]
    simp only [Bool.and_eq_true, beq_iff_eq, decide_eq_true_iff, and_assoc]
    rfl

/-- Settles O25: the end of the save step by step, and of the restore where the image matches. -/
theorem standbySaveAndRestore : Obligations.StandbySaveAndRestore := by
  refine ⟨fun s r hcore hentry => ?save, fun s hkeeper hchip hwaking hseq hjudged hlocked => ⟨fun himage => ?restored, fun himage => ?held⟩⟩
  case save =>
    show execStbySaveDone s = _
    exact run_on hcore (by rw [hentry])
  case restored =>
    show execStbyRestoreDone s = _
    refine run_on hkeeper (if_pos ?_)
    rw [hchip, hwaking, hseq, hjudged, himage, List.all_eq_true.2 hlocked, beq_self_eq_true s.sec.cpHash]
    rfl
  case held =>
    show execStbyRestoreDone s = _
    refine run_on hkeeper (if_neg ?_)
    rw [beq_false_of_ne himage, Bool.and_false]
    exact Bool.false_ne_true

end Sys2Proof.Machine
end

section
/-! Ford windows at work (R73, R119, R123, R129 to R132). -/
namespace Sys2Proof.Machine
open Sys2Proof

section
variable {s : State} {m w : Nat}

/-- A doorbell that the keeper latches. -/
theorem State.latchDoorbell_of_enabled (hen : (s.fn m).enabled = true) (off v : Nat) : s.latchDoorbell m off v =
    (s.updFn m fun x => { x with latch := x.latch.filter (·.1 != off) ++ [(off, v)] }).wake := if_pos hen

/-- A doorbell below the slot count. -/
theorem State.dbWrite_of_below {v : Nat} (hopen : s.fnOpen m = true) (hw : w < 64) (hmapped : (s.window m w).mapped = true)
    (hbelow : bits v 0 12 < (s.window m w).count) : s.dbWrite m w v =
      (State.doorbellWake (
        let t := s.scan m w (bits v 0 12)
        if (t.window m w).head = bits v 0 12 then t
        else t.updWindow m w fun x => { x with rescans := x.rescans ++ [(t.now, bits v 0 12)] })).advance := by
  have hgo : ¬(!s.fnOpen m || decide (64 ≤ w) || !(s.window m w).mapped || decide ((s.window m w).count ≤ bits v 0 12)) = true := by
    simp [hopen, hw, hmapped, hbelow]
  have hdoor : ¬(!s.fnOpen m || decide (64 ≤ w)) = true := by simp [hopen, hw]
  have hmap : ¬(!(s.window m w).mapped || decide ((s.window m w).count ≤ bits v 0 12)) = true := by simp [hmapped, hbelow]
  refine (if_neg hgo).trans ?_
  rw [State.fordDoorbell, if_neg hdoor, if_neg hmap]

/-- A doorbell at or above the slot count, or of no window. -/
theorem State.dbWrite_of_above {v : Nat} (hopen : s.fnOpen m = true) (hw : w < 64)
    (h : (s.window m w).mapped = false ∨ (s.window m w).count ≤ bits v 0 12) : s.dbWrite m w v = s.violate m w := by
  have hmap : (!(s.window m w).mapped || decide ((s.window m w).count ≤ bits v 0 12)) = true := by simpa using h
  have hdoor : ¬(!s.fnOpen m || decide (64 ≤ w)) = true := by simp [hopen, hw]
  refine (if_pos ?_).trans ((if_neg hdoor).trans (if_pos hmap))
  rw [Bool.or_assoc, hmap, Bool.or_true]

/-- A request off the IDE stream of a locked interface. -/
theorem State.offStream_of_locked (h : (s.fn m).tdi = 1 ∨ (s.fn m).tdi = 2) : s.offStream m false = true := by
  rcases h with h | h <;> simp [State.offStream, h]
end

/-- Settles O26: each row by what its doorbell, its window or its interface says. -/
theorem fordRows : Obligations.FordRows := by
  refine ⟨fun s m w v ide hkeeper hcore hoff hopen hw hmapped hbelow => ?scan, fun s m w v ide hkeeper hcore hoff hopen hw h => ?violation,
    fun s m w v ide hkeeper hcore hsusp hoff hen hw => ?latched, fun s m w t tail rest hcore hopen hmapped hres ht => ?rescan,
    fun s hcore hchip hat hpolled => ?poll, fun s m w byte v ide hcore hoff hopen hmapped hbyte hword => ?flag,
    fun s m off data ep ide hcore hoff hm hen => ?data, fun s m off ide hcore hoff hen hnone => ⟨?unmappedWrite, ?unmappedRead⟩,
    fun s m off w byte v data ep hcore hkeeper htdi => ⟨?lockedDb, ?lockedFlag, ?lockedData, ?lockedWrite, ?lockedRead⟩⟩
  case scan =>
    show execFordDbWrite m w v ide s = _
    exact barRun_on hkeeper hoff ((if_pos hcore).trans (State.dbWrite_of_below hopen hw hmapped hbelow))
  case violation =>
    show execFordDbWrite m w v ide s = _
    exact barRun_on hkeeper hoff ((if_pos hcore).trans (State.dbWrite_of_above hopen hw h))
  case latched =>
    show execFordDbWrite m w v ide s = _
    refine barRun_on hkeeper hoff ((if_neg (ne_true_of_eq_false hcore)).trans ((if_pos ?_).trans
      (State.latchDoorbell_of_enabled hen _ _)))
    rw [hsusp, decide_eq_true hw]
    rfl
  case rescan =>
    show execFordRescan m w s = _
    refine run_on hcore ?_
    dsimp only
    rw [hres]
    exact if_pos (by rw [hopen, hmapped, decide_eq_true ht]; rfl)
  case poll =>
    show execFordPoll s = _
    exact run_on hcore (if_pos (by rw [hchip, decide_eq_true hat, bne_iff_ne.2 hpolled.symm]; rfl))
  case flag =>
    show execFordFlagWrite m w byte v ide s = _
    exact barRun_on hcore hoff (if_pos (by rw [hopen, hmapped, decide_eq_true hbyte, hword]; rfl))
  case data =>
    show execFordDataWrite m off data ep ide s = _
    exact barRun_on hcore hoff (if_pos (by rw [hen, decide_eq_true hm]; rfl))
  case unmappedWrite =>
    show execBar2UnmappedAccess m off true ide s = _
    exact barRun_on hcore hoff (if_neg (by rw [hen, hnone]; exact Bool.false_ne_true))
  case unmappedRead =>
    show execBar2UnmappedAccess m off false ide s = _
    exact barRun_on hcore hoff (if_neg (by rw [hen, hnone]; exact Bool.false_ne_true))
  case lockedDb =>
    show execFordDbWrite m w v false s = _
    exact barRun_offStream hkeeper (State.offStream_of_locked htdi)
  case lockedFlag =>
    show execFordFlagWrite m w byte v false s = _
    exact barRun_offStream hcore (State.offStream_of_locked htdi)
  case lockedData =>
    show execFordDataWrite m off data ep false s = _
    exact barRun_offStream hcore (State.offStream_of_locked htdi)
  case lockedWrite =>
    show execBar2UnmappedAccess m off true false s = _
    exact barRun_offStream hcore (State.offStream_of_locked htdi)
  case lockedRead =>
    show execBar2UnmappedAccess m off false false s = _
    exact barRun_offStream_read hcore (State.offStream_of_locked htdi)

end Sys2Proof.Machine
end

section
/-! Registers (R123, R449, R450, R456, R457). -/
namespace Sys2Proof.Machine
open Sys2Proof

/-- An offset that answers from a latch is not itself the low half of a pair. -/
theorem roPair_of_latched {m : Nat} {x : Nat × Nat} (h : latched m x = true) : roPair m x = false := by
  obtain ⟨b, o⟩ := x
  by_contra hpair
  rw [Bool.not_eq_false] at hpair
  unfold roPair at hpair
  split at hpair <;> simp_all [latched, roPair]

section
variable {s : State} {m off size : Nat} {ide : Bool}

/-- A read of BAR0 that the function's interface lets through. -/
theorem exec_loRegisterRead (off size : Nat) (hcore : s.core = true) (hoff : s.offStream m ide = false) (hon : s.bar0On m = true) :
    exec (.loRegisterRead m off size ide) s = .next (finish s (
      if !(size == 4 || size == 8) || off % size != 0 then { s with readData := 0 }
      else if roPair m (blockOf m off) then s.pairRead m off size
      else { s with readData := s.regWord m off + (if size = 8 then s.regWord m (off + 4) * 2 ^ 32 else 0) })) := by
  show execLoRegisterRead m off size ide s = _
  exact barRun_on hcore hoff (if_neg (not_not_eq_true hon))

/-- A size and an alignment that a register answers. -/
theorem aligned_of {size off : Nat} (hsize : size = 4 ∨ size = 8) (h : off % size = 0) :
    ¬(!(size == 4 || size == 8) || off % size != 0) = true := by
  rcases hsize with rfl | rfl <;> simp [h]

theorem exec_loRegisterRead_misaligned (hcore : s.core = true) (hoff : s.offStream m ide = false) (hon : s.bar0On m = true)
    (h : size = 4 ∨ size = 8 → off % size ≠ 0) :
    exec (.loRegisterRead m off size ide) s = .next (finish s { s with readData := 0 }) := by
  rw [exec_loRegisterRead off size hcore hoff hon, if_pos]
  by_cases hsize : size = 4 ∨ size = 8
  · rw [bne_iff_ne.2 (h hsize), Bool.or_true]
  · rw [not_or] at hsize
    rw [beq_false_of_ne hsize.1, beq_false_of_ne hsize.2]
    rfl

theorem exec_loRegisterRead_pair (hcore : s.core = true) (hoff : s.offStream m ide = false) (hon : s.bar0On m = true)
    (hsize : size = 4 ∨ size = 8) (h : off % size = 0) (hpair : roPair m (blockOf m off) = true) :
    exec (.loRegisterRead m off size ide) s = .next (finish s (s.pairRead m off size)) := by
  rw [exec_loRegisterRead off size hcore hoff hon, if_neg (aligned_of hsize h), if_pos hpair]

theorem exec_loRegisterRead_word (hcore : s.core = true) (hoff : s.offStream m ide = false) (hon : s.bar0On m = true)
    (hsize : size = 4 ∨ size = 8) (h : off % size = 0) (hpair : roPair m (blockOf m off) = false) :
    exec (.loRegisterRead m off size ide) s = .next (finish s
      { s with readData := s.regWord m off + (if size = 8 then s.regWord m (off + 4) * 2 ^ 32 else 0) }) := by
  rw [exec_loRegisterRead off size hcore hoff hon, if_neg (aligned_of hsize h), if_neg (ne_true_of_eq_false hpair)]

theorem State.pairRead_eq (s : State) (m off size : Nat) : s.pairRead m off size =
    let t : State := if blockOf m off = (9, 0x048) then s.perfRead else s
    { t.setLatch m (off + 4) (t.reg m (off + 4)) with
      readData := t.reg m off + (if size = 8 then t.reg m (off + 4) * 2 ^ 32 else 0) } := by
  rw [State.pairRead]
  simp only [beq_iff_eq]

/-- A write of BAR0 that the function's interface lets through. -/
theorem exec_registerWrite (v : BitVec 64) (hcore : s.core = true) (hoff : s.offStream m ide = false) (hon : s.bar0On m = true)
    (hsize : size = 4 ∨ size = 8) (h : off % size = 0) :
    exec (.registerWrite m off size v ide) s = .next (finish s (
      let t := s.wordWrite m off (wordOf v.toNat false)
      if size = 8 then t.wordWrite m (off + 4) (wordOf v.toNat true) else t)) := by
  show execRegisterWrite m off size v ide s = _
  refine barRun_on hcore hoff (if_neg ?_)
  rw [hon, Bool.not_true, Bool.false_or]
  exact aligned_of hsize h

theorem blockOf_tailOff (m : Nat) : blockOf m (tailOff m) = (1, 0x1C) := by
  by_cases h : m = 0 <;> simp [blockOf, tailOff, h]

theorem State.wordWrite_tailOff (s : State) (m w : Nat) : s.wordWrite m (tailOff m) w = s.sqTail m w := by
  rw [State.wordWrite, blockOf_tailOff]
  rfl
end

/-- Settles O27: a read by its alignment and by whether its offset is the low half of a pair or answers from a latch. -/
theorem registerRows : Obligations.RegisterRows := by
  refine ⟨fun s m off size ide hcore hoff hon h => exec_loRegisterRead_misaligned hcore hoff hon h,
    fun s m off ide hcore hoff hon h hlatch => ?latched, fun s m off ide hcore hoff hon hpair => ⟨fun h => ?pair4, fun h => ?pair8⟩,
    fun s m off ide hcore hoff hon h hlatch hpair => ?plain4, fun s m off ide hcore hoff hon h hpair => ?plain8,
    fun s v hcore hon => ?alert, fun s m off v ide hcore hoff hon => ⟨fun h => ?write4, fun h => ?write8⟩,
    State.wordWrite_tailOff, fun s m off size v hcore htdi => ⟨?lockedWrite, ?lockedRead⟩, fun s hcore hon => ?ptm,
    fun s hcore hon => ?linkErr⟩
  case latched =>
    rw [exec_loRegisterRead_word hcore hoff hon (.inl rfl) h (roPair_of_latched hlatch), State.regWord, if_pos hlatch]
    rfl
  case pair4 =>
    rw [exec_loRegisterRead_pair hcore hoff hon (.inl rfl) h hpair, State.pairRead_eq]
    rfl
  case pair8 =>
    rw [exec_loRegisterRead_pair hcore hoff hon (.inr rfl) h hpair, State.pairRead_eq]
    rfl
  case plain4 =>
    rw [exec_loRegisterRead_word hcore hoff hon (.inl rfl) h hpair, State.regWord, if_neg (ne_true_of_eq_false hlatch)]
    rfl
  case plain8 =>
    rw [exec_loRegisterRead_word hcore hoff hon (.inr rfl) h hpair]
    rfl
  case alert =>
    show execPwrAlertCauseWrite v s = _
    exact run_on hcore (if_neg (not_not_eq_true hon))
  case write4 =>
    rw [exec_registerWrite v hcore hoff hon (.inl rfl) h]
    rfl
  case write8 =>
    rw [exec_registerWrite v hcore hoff hon (.inr rfl) h]
    rfl
  case lockedWrite =>
    show execRegisterWrite m off size v false s = _
    exact barRun_offStream hcore (State.offStream_of_locked htdi)
  case lockedRead =>
    show execLoRegisterRead m off size false s = _
    exact barRun_offStream_read hcore (State.offStream_of_locked htdi)
  case ptm =>
    show execHifPtmMasterLoRead s = _
    exact run_on hcore (if_neg (not_not_eq_true hon))
  case linkErr =>
    show execHifLinkErrRead s = _
    exact run_on hcore (if_neg (not_not_eq_true hon))

end Sys2Proof.Machine
end

section
/-! The debug windows, JTAG, PLDM and SPDM (R58, R418 to R421, R458). -/
namespace Sys2Proof.Machine
open Sys2Proof

section
variable {s : State}

/-- A row of the debug windows at INVASIVE. -/
theorem invasive (hon : s.bar0On 0 = true) (hlevel : s.sec.level = 2) : ¬(!s.bar0On 0 || s.sec.level != 2) = true := by
  simp [hon, hlevel]

theorem exec_dbgMemDataLoRead (hcore : s.core = true) (hon : s.bar0On 0 = true) (hlevel : s.sec.level = 2) :
    exec .dbgMemDataLoRead s = .next (finish s (match s.dbgWord with
      | .refused => { s with readData := 0, dbg := { s.dbg with memData := 0 } }
      | .wait p => (s.dbgHold none).wakePlain p
      | .at' a => { s.dbgAccess a none with dbg := (s.dbgAccess a none).dbg.advance })) := by
  show execDbgMemDataLoRead s = _
  exact run_on hcore ((if_neg (not_not_eq_true hon)).trans (if_neg (by simp [hlevel])))

theorem exec_dbgMemDataHiWrite (v : BitVec 32) (hcore : s.core = true) (hon : s.bar0On 0 = true) (hlevel : s.sec.level = 2) :
    exec (.dbgMemDataHiWrite v) s = .next (finish s (s.memDataHi v)) := by
  show execDbgMemDataHiWrite v s = _
  exact run_on hcore (if_neg (invasive hon hlevel))

theorem State.dbgAccess_none (s : State) (a : Nat) : { s.dbgAccess a none with dbg := (s.dbgAccess a none).dbg.advance } =
    { s with readData := s.rdNat a 8 % 2 ^ 32,
             dbg := ({ s.dbg with memData := BitVec.ofNat 64 (s.rdNat a 8) } : Dbg).advance } := by
  generalize hn : s.rdNat a 8 = n
  simp only [State.dbgAccess, hn]

theorem State.dbgAccess_write (s : State) (a d : Nat) : s.dbgAccess a (some d) =
    { s.wr a (leBytes 8 d) with dbg := { s.dbg with memData := BitVec.ofNat 64 d } } := by
  rw [State.dbgAccess]

theorem State.advanced_of_eq {t w : State} {x : Dbg} (h : t = { w with dbg := x }) :
    { t with dbg := t.dbg.advance } = { w with dbg := x.advance } := by
  rw [h]

theorem State.dbgAccess_some (s : State) (a d : Nat) :
    { s.dbgAccess a (some d) with dbg := (s.dbgAccess a (some d)).dbg.advance } =
    { s.wr a (leBytes 8 d) with dbg := ({ s.dbg with memData := BitVec.ofNat 64 d } : Dbg).advance } :=
  State.advanced_of_eq (s.dbgAccess_write a d)

theorem exec_dbgMemDataLoRead_of_wait {p : Nat} (hcore : s.core = true) (hon : s.bar0On 0 = true) (hlevel : s.sec.level = 2)
    (h : s.dbgWord = .wait p) : exec .dbgMemDataLoRead s = .next (finish s ((s.dbgHold none).wakePlain p)) := by
  rw [exec_dbgMemDataLoRead hcore hon hlevel]
  rw [h]

theorem exec_dbgMemDataLoRead_of_at {a : Nat} (hcore : s.core = true) (hon : s.bar0On 0 = true) (hlevel : s.sec.level = 2)
    (h : s.dbgWord = .at' a) : exec .dbgMemDataLoRead s = .next (finish s
      { s.dbgAccess a none with dbg := (s.dbgAccess a none).dbg.advance }) := by
  rw [exec_dbgMemDataLoRead hcore hon hlevel]
  rw [h]

/-- The definition as an equation between functions, which is checked without evaluating the word of DBG_MEM_ADDR. -/
theorem State.memDataHi_def : State.memDataHi = fun s v => match s.dbgWord with
    | .refused => s
    | .wait p => (s.dbgHold (some (s.dbgData v))).wakePlain p
    | .at' a => { s.dbgAccess a (some (s.dbgData v)) with dbg := (s.dbgAccess a (some (s.dbgData v))).dbg.advance } := by
  delta State.memDataHi
  rfl

theorem State.memDataHi_of_wait {p : Nat} (h : s.dbgWord = .wait p) (v : BitVec 32) :
    s.memDataHi v = (s.dbgHold (some (s.dbgData v))).wakePlain p := by
  rw [State.memDataHi_def]
  beta_reduce
  rw [h]

theorem State.memDataHi_of_at {a : Nat} (h : s.dbgWord = .at' a) (v : BitVec 32) : s.memDataHi v =
    { s.wr a (leBytes 8 (s.dbgData v)) with
      dbg := ({ s.dbg with memData := BitVec.ofNat 64 (s.dbgData v) } : Dbg).advance } := by
  rw [← State.dbgAccess_some, State.memDataHi_def]
  beta_reduce
  rw [h]

theorem exec_jtagInstruction (op : JtagOp) (haon : s.aon = true) :
    exec (.jtagInstruction op) s = .next (finish s (
      let op := if s.jtagOpen op then op else .bypass
      let s := { s with dbg := { s.dbg with jtag := op } }
      match op with
      | .idcode => { s with readData := Config.idcode.toNat }
      | .bypass => { s with readData := 0 }
      | _ => { s with fresh := s.fresh + 1, readData := s.free.1 })) := by
  show execJtagInstruction op s = _
  refine run_on haon ?_
  dsimp only
  generalize (if s.jtagOpen op then op else JtagOp.bypass) = x
  cases x <;> rfl
end

/-- Settles O28: each window by the level that opens it. -/
theorem debugRows : Obligations.DebugRows := by
  refine ⟨fun s hcore hon hlevel => ⟨?log, ?trace⟩, fun s hcore hon hlevel => ⟨?logShut, ?traceShut, ?memShut⟩,
    fun s a hcore hon hlevel hword => ?read, fun s p hcore hon hlevel hword => ⟨?readWaits, fun v => ?writeWaits⟩,
    fun s a v hcore hon hlevel hword => ?write, fun s v hcore hon hlevel => ⟨?halt, ?step⟩, fun s haon => exec_jtagInstruction _ haon,
    fun s op haon hshut => ?jtagShut, fun s r haon hlast => ?sensor, fun s slot hsol => ⟨?measurement, ?certificates, ?report⟩,
    fun s c t hcore hchal ht => ?lapse⟩
  case log =>
    show execDbgLogData0Read s = _
    exact run_on hcore ((if_neg (not_not_eq_true hon)).trans (if_neg hlevel))
  case trace =>
    show execDbgTraceData0Read s = _
    exact run_on hcore ((if_neg (not_not_eq_true hon)).trans (if_neg hlevel))
  case logShut =>
    show execDbgLogData0Read s = _
    exact run_on hcore ((if_neg (not_not_eq_true hon)).trans (if_pos hlevel))
  case traceShut =>
    show execDbgTraceData0Read s = _
    exact run_on hcore ((if_neg (not_not_eq_true hon)).trans (if_pos hlevel))
  case memShut =>
    show execDbgMemDataLoRead s = _
    exact run_on hcore ((if_neg (not_not_eq_true hon)).trans (if_pos (by rw [hlevel]; rfl)))
  case read =>
    rw [exec_dbgMemDataLoRead_of_at hcore hon hlevel hword, State.dbgAccess_none]
  case readWaits => exact exec_dbgMemDataLoRead_of_wait hcore hon hlevel hword
  case writeWaits => rw [exec_dbgMemDataHiWrite v hcore hon hlevel, State.memDataHi_of_wait hword]
  case write =>
    intro d
    have hd : s.dbgData v = d := State.dbgData.eq_1 s v
    clear_value d
    rw [exec_dbgMemDataHiWrite v hcore hon hlevel, State.memDataHi_of_at hword, hd]
  case halt =>
    show execDbgCpHalt v s = _
    refine run_on hcore ((if_neg (invasive hon hlevel)).trans ?_)
    simp only [State.cpHaltWrite, Bool.and_eq_true, bne_iff_ne, beq_iff_eq]
  case step =>
    show execDbgCpStep v s = _
    exact run_on hcore (if_neg (invasive hon hlevel))
  case jtagShut =>
    rw [exec_jtagInstruction op haon, hshut]
    rfl
  case sensor =>
    show execPldmSensorRead 0 s = _
    refine run_on haon ?_
    show ({ s with fresh := _, readData := (s.sup.last.map fun r => leNat r.bytes).getD _ } : State) = _
    rw [hlast]
    rfl
  case measurement =>
    show execSpdmRequest 0xE0 slot s = _
    exact run_on hsol rfl
  case certificates =>
    show execSpdmRequest 0x82 0 s = _
    exact run_on hsol rfl
  case report =>
    show execSpdmRequest 0xFE slot s = _
    exact run_on hsol rfl
  case lapse =>
    show execDebugChallengeLapse s = _
    refine run_on hcore (if_pos ?_)
    rw [hchal, Option.any_some, decide_eq_true ht]

end Sys2Proof.Machine
end

section
/-! The boot and the firmware (R82 to R86, R407, R427 to R439). -/
namespace Sys2Proof.Machine
open Sys2Proof

section
variable {s : State}

/-- What follows the self-tests and a flash that fits: the boot decision, and the CP boots. -/
def State.decideBoot (a : State) : State :=
  match a.bootDecision with
  | (t, none) => State.fault { t with fw := { t.fw with unbootable := some t.now } }
  | (t, some k) =>
    let u : State := t.bootInto k
    let v : State := if u.boot.kind = 0 && u.sec.lifecycle = 3 && !u.sec.rmaErased then
      { u.eraseFlash defectBase 0x10000 with sec := { u.sec with rmaErased := true } } else u
    let w : State := ((List.range 24).foldl State.portLost v).applyDefects
    w.log { code := EV.logBoot, cls := 2, stamp := w.now,
            payload := pay [(0, w.boot.kind), (1, if w.boot.defaultUsed then 255 else w.boot.active), (4, w.fw.version)] }

/-- A boot that may go on, its self-tests passed. -/
theorem exec_secureBootDone (part : Option (Nat × Bool)) (hcore : s.core = true) (hstage : s.boot.stage = .secureBoot)
    (hboot : s.fw.unbootable = none) (herr : s.sec.error = false) :
    exec (.secureBootDone true part) s = .next (finish s (
      let a : State := { s with sec := { s.sec with selfTest := true }, boot := { s.boot with flashPart := part } }
      if flashFits part then a.decideBoot else a.fault)) := by
  have hgo : ¬(s.boot.stage != .secureBoot || s.fw.unbootable.isSome || s.sec.error) = true := by simp [hstage, hboot, herr]
  have htest : ¬(decide (s.boot.kind = 0) && !true) = true := by simp
  show execSecureBootDone true part s = _
  refine run_on hcore ((if_neg hgo).trans ((if_neg htest).trans ?_))
  generalize ({ s with sec := { s.sec with selfTest := true }, boot := { s.boot with flashPart := part } } : State) = a
  cases flashFits part with
  | false => rfl
  | true =>
    refine (if_neg (by decide)).trans (Eq.trans ?_ (if_pos rfl).symm)
    unfold State.decideBoot
    generalize a.bootDecision = d
    obtain ⟨t, _ | k⟩ := d
    · rfl
    · dsimp only

theorem flashFits_some (size : Nat) (octal : Bool) : flashFits (some (size, octal)) = decide (2 ^ 26 ≤ size) := rfl

theorem State.bringUp_of_not (h : s.boot.stage ≠ .train ∨ s.basinsDone = false) : s.bringUp = s := by
  refine if_neg ?_
  rw [Bool.and_eq_true, beq_iff_eq]
  rintro ⟨hstage, hdone⟩
  rcases h with h | h
  · exact h hstage
  · exact Bool.false_ne_true (h.symm.trans hdone)

theorem State.EventsOnly.fw {t : State} (h : s.EventsOnly t) : t.fw = s.fw := by obtain ⟨_, _, _, _, rfl⟩ := h; rfl

/-- The end of the boot where no image was passed over. -/
theorem exec_deviceReady (hcore : s.core = true) (hstage : s.boot.stage = .calibrate) (hcal : s.boot.calibrated = true)
    (hfall : s.fw.fallback = none) :
    exec .deviceReady s = .next (finish s (
      let service := s.boot.fatal || s.sec.lifecycle == 4
      let t : State := { s with boot := { s.boot with stage := if service then .service else .ready } }
      (if service then t else t.emit [0] EV.deviceReady 2).finalSnap)) := by
  show execDeviceReady s = _
  refine run_on hcore ((if_neg ?_).trans ?_)
  · rw [hstage, hcal]
    decide
  · dsimp only
    generalize (s.boot.fatal || s.sec.lifecycle == 4) = service
    cases service with
    | true => simp only [if_true, hfall]
    | false =>
      simp only [Bool.false_eq_true, if_false, (State.emit_eventsOnly ..).fw, hfall]
end

/-- Settles O29: each stage by what it waits for. -/
theorem bootAndFirmwareRows : Obligations.BootAndFirmwareRows := by
  refine ⟨fun s part hcore hstage hboot herr hkind => ?selfTest, fun t k => ⟨rfl, rfl, rfl⟩,
    fun s size octal hcore hstage hboot herr => ⟨fun h => ?small, ?noSfdp, fun h => ?fits⟩,
    fun s results hcore hstage => ⟨fun hlocked => ?tested, fun hopen => ?waits⟩,
    fun s => ⟨fun hstage hdone => ?bringUp, State.bringUp_of_not⟩, fun s costs rate hcore hstage hcal => ?calibrated,
    fun s hcore hstage hcal hfall => ⟨fun hfatal hlife => ?ready, fun h => ?service⟩, fun s t hcore hboot ht => ?release,
    fun s w rest hcore hwork => ⟨fun hcp => ?sector, fun hcp => ?cpDown⟩, fun s r hcore hcp hverify => ?verified,
    fun s hcore herr => ?entropy⟩
  case selfTest =>
    show execSecureBootDone false part s = _
    refine run_on hcore ((if_neg ?_).trans (if_pos ?_))
    · rw [hstage, hboot, herr]
      exact Bool.false_ne_true
    · rw [hkind]
      rfl
  case small =>
    rw [exec_secureBootDone _ hcore hstage hboot herr, flashFits_some, decide_eq_false (Nat.not_le.2 h)]
    rfl
  case noSfdp => exact exec_secureBootDone none hcore hstage hboot herr
  case fits =>
    rw [exec_secureBootDone _ hcore hstage hboot herr, flashFits_some, decide_eq_true h]
    dsimp only
    rw [if_pos rfl]
    unfold State.decideBoot
    generalize State.bootDecision _ = d
    obtain ⟨t, _ | k⟩ := d
    · rfl
    · dsimp only
  case tested =>
    show execStartTestDone results s = _
    refine run_on hcore (if_neg ?_)
    have hall : (s.plains.any fun x => !x.locked) = false := by simpa using hlocked
    rw [hstage, hall]
    decide
  case waits =>
    show execStartTestDone results s = _
    refine run_on hcore (if_pos ?_)
    have hany : (s.plains.any fun x => !x.locked) = true := by simpa using hopen
    rw [hany, Bool.or_true]
  case bringUp => exact if_pos (by rw [hstage, hdone]; rfl)
  case calibrated =>
    show execCalibrationDone costs rate s = _
    exact run_on hcore (if_pos (by rw [hstage, hcal]; rfl))
  case ready =>
    rw [exec_deviceReady hcore hstage hcal hfall, hfatal, beq_false_of_ne hlife]
    rfl
  case service =>
    have hservice : (s.boot.fatal || s.sec.lifecycle == 4) = true := by simpa using h
    rw [exec_deviceReady hcore hstage hcal hfall, hservice]
    rfl
  case release =>
    show execFlashRelease s = _
    exact run_on hcore (if_pos (any_due_iff.2 ⟨t, hboot, ht⟩))
  case sector =>
    show execFlashSectorProgrammed s = _
    refine run_on hcore ?_
    rw [hwork]
    exact if_pos hcp
  case cpDown =>
    show execFlashSectorProgrammed s = _
    refine run_on hcore ?_
    rw [hwork]
    exact if_neg (ne_true_of_eq_false hcp)
  case verified =>
    show execFwVerifyDone s = _
    refine run_on hcore ?_
    rw [if_pos hcp, hverify]
    dsimp only
    generalize s.imageCause s.other = cause
    split <;> rfl
  case entropy =>
    show execEntropyTestFail s = _
    exact run_on hcore (if_neg (ne_true_of_eq_false herr))

end Sys2Proof.Machine
end

section
/-! Operations (R191, chapters 15 to 20). -/
namespace Sys2Proof.Machine
open Sys2Proof

section
variable {s : State} {i d op : Nat} {rg : State → Op → List (Nat × Nat) × List (Nat × Nat)} {eff : State → Op → State}
  {bl : State → Op → Option Nat} {o : Op}

/-- An operation whose operands are not within reach faults its job. -/
theorem operate_fault {c : Nat} (h : s.op? i d op = some o) (hb : bl s o = none)
    (hr : s.reach o (rg s o).1 (rg s o).2 = .fault c) :
    s.operate i d op rg eff bl = s.opFault o c (rg s o).1 (rg s o).2 (eff s o) := by
  unfold State.operate
  simp only [h, hb]
  rw [hr]

/-- An operation some of whose bytes have still to come waits. -/
theorem operate_hold {t : State} (h : s.op? i d op = some o) (hb : bl s o = none)
    (hr : s.reach o (rg s o).1 (rg s o).2 = .hold t) : s.operate i d op rg eff bl = t := by
  unfold State.operate
  simp only [h, hb]
  rw [hr]

theorem attnBlocked_of_read {m : KvMap} (hread : dField o.b 24 = 0) (hkv : s.kvOf o.x.index = some m)
    (hpool : (s.pool m.pool).lost = false) : attnBlocked s o = none := by
  unfold attnBlocked
  rw [if_pos hread, hkv]
  exact if_neg (ne_true_of_eq_false hpool)

theorem attnBlocked_of_append (happ : dField o.b 24 ≠ 0)
    (h : s.appendBlocked o (o.b.nat 40 0 16) (o.b.nat 44 0 32) ((s.opTensor o 16).dim 2) = none) : attnBlocked s o = none :=
  (if_neg happ).trans h

/-- ATTN where no read of a pool on another chip is to come. -/
theorem exec_attn (hcore : s.core = true) (hwaits : s.kvWaits i d = none) :
    exec (.attn i d) s = .next (finish s (s.operate i d oAttn attnRegions effAttn attnBlocked)) := by
  show execAttn i d s = _
  refine run_on hcore ?_
  rw [hwaits]
end

/-- Settles O30: each row by the frame of an operation whose operands are within reach. -/
theorem operationRows : Obligations.OperationRows := by
  refine ⟨fun s i d o hcore => ⟨fun h hr => ?matmul, fun h hr => ?conv, fun h hr => ?tconv, fun h hr => ?sfu, fun h hr => ?softmax,
    fun h hr => ?norm, fun h hr => ?quant, fun h hr => ?copy, fun h hr => ?compose, fun m h hwaits hread hkv hpool hr => ?attnRead,
    fun h hwaits happ hblock hr => ?attnAppend, fun h hblock hr => ?append, fun h hr => ?coll⟩,
    fun s i d o hcore h => ⟨fun c hr => ?fault, fun t hr => ?hold⟩⟩
  case matmul =>
    show execMatmul i d s = _
    exact run_on hcore (operate_go h rfl hr)
  case conv =>
    show execConv i d s = _
    exact run_on hcore (operate_go h rfl hr)
  case tconv =>
    show execTconv i d s = _
    exact run_on hcore (operate_go h rfl hr)
  case sfu =>
    show execSfu i d s = _
    exact run_on hcore (operate_go h rfl hr)
  case softmax =>
    show execSoftmax i d s = _
    exact run_on hcore (operate_go h rfl hr)
  case norm =>
    show execNorm i d s = _
    exact run_on hcore (operate_go h rfl hr)
  case quant =>
    show execQuant i d s = _
    exact run_on hcore (operate_go h rfl hr)
  case copy =>
    show execCopy i d s = _
    exact run_on hcore (operate_go h rfl hr)
  case compose =>
    show execCompose i d s = _
    exact run_on hcore (operate_go h rfl hr)
  case attnRead => rw [exec_attn hcore hwaits, operate_go h (attnBlocked_of_read hread hkv hpool) hr]
  case attnAppend => rw [exec_attn hcore hwaits, operate_go h (attnBlocked_of_append happ hblock) hr]
  case append =>
    show execKvAppend i d s = _
    exact run_on hcore (operate_go h hblock hr)
  case coll =>
    show execColl i d s = _
    refine run_on hcore ?_
    rw [h]
    simp only [hr]
  case fault =>
    show execMatmul i d s = _
    exact run_on hcore (operate_fault h rfl hr)
  case hold =>
    show execMatmul i d s = _
    exact run_on hcore (operate_hold h rfl hr)

end Sys2Proof.Machine
end

section
/-! The life of a job (R11, R61, R182 to R203, R222). -/
namespace Sys2Proof.Machine
open Sys2Proof

section
variable {s : State} {i d : Nat} {x : Stream} {j : Job}

/-- The head job's next leading wait, which is not under way yet. -/
theorem exec_syncWait (hcore : s.core = true) (hlive : s.live? i = some (x, j)) (hwaits : j.waits = d) (hlead : d < j.leading)
    (hfrom : j.waitFrom = none) :
    exec (.syncWait i d) s = .next (finish s (
      if s.missed x j then (s.removeJob i j ST.lateDropped).advance
      else if !(s.retOf x.owner (j.at d)).isEmpty then (s.retOf x.owner (j.at d)).foldl State.wakePlain s
      else match s.descCheck x j d with
        | some c => (s.faultJob i c d).advance
        | none => (s.evalWait x j (s.block (j.at d))).advance)) := by
  have hgo : ¬(j.waits != d || decide (j.leading ≤ d) || j.waitFrom.isSome) = true := by simp [hwaits, hlead, hfrom]
  show execSyncWait i d s = _
  refine run_on hcore ?_
  rw [hlive]
  exact if_neg hgo

/-- A signal whose descriptor passes its checks; said of any evaluation of a signal, so that checking it evaluates none. -/
theorem signalled_of_checked (hcheck : s.descCheck x j d = none) (signal : State → Stream → Nat → Block → State × Bool)
    (t : State) (i : Nat) :
    (match s.descCheck x j d with
      | some c => (s.faultJob i c d).advance
      | none =>
        let s := t
        let (s, done) := signal s x d (s.block (j.at d))
        (if done then (s.markEnded i d false).endHead i else s).advance) =
      let r := signal t x d (t.block (j.at d))
      (if r.2 then (r.1.markEnded i d false).endHead i else r.1).advance := by
  rw [hcheck]

/-- A signal whose earlier descriptors have all ended. -/
theorem exec_syncSignal {e : Desc} (hcore : s.core = true) (hlive : s.live? i = some (x, j)) (hlead : j.leading ≤ j.waits)
    (hnext : j.next = d) (hdesc : j.descs[d]? = some e) (hop : e.op = oSignal)
    (hended : ∀ k, k < d → k < j.leading ∨ j.ended.contains k = true) (hmissed : s.missed x j = false)
    (hret : s.retOf x.owner (j.at d) = []) (hcheck : s.descCheck x j d = none) :
    exec (.syncSignal i d) s = .next (finish s (
      let t : State := s.updStream i fun x => x.updHead fun j => { j with next := d + 1, started := some (j.started.getD s.now) }
      let r : State × Bool := t.evalSignal x d (t.block (j.at d))
      (if r.2 then (r.1.markEnded i d false).endHead i else r.1).advance)) := by
  have hgo : ¬(decide (j.waits < j.leading) || j.next != d || (j.descs[d]?).all (·.op != oSignal) ||
      !((List.range d).all fun k => decide (k < j.leading) || j.ended.contains k)) = true := by
    have hall : ((List.range d).all fun k => decide (k < j.leading) || j.ended.contains k) = true := by
      rw [List.all_eq_true]
      exact fun k hk => Bool.or_eq_true_iff.2 ((hended k (List.mem_range.1 hk)).imp_left decide_eq_true)
    rw [decide_eq_false (Nat.not_lt.2 hlead), hnext, hdesc, Option.all_some, hop, hall, bne_self_eq_false, bne_self_eq_false]
    exact Bool.false_ne_true
  show execSyncSignal i d s = _
  refine run_on hcore ?_
  rw [hlive]
  refine (if_neg hgo).trans ((if_neg (ne_true_of_eq_false hmissed)).trans ((if_neg ?_).trans ?_))
  · rw [hret]
    exact Bool.false_ne_true
  · exact signalled_of_checked hcheck State.evalSignal _ i

theorem State.endDesc_of_run {r : Run} (h : s.runAt i d = some r) : s.endDesc i d = (s.learn r).endRun i d := by
  rw [State.endDesc, h]

/-- The wait under way of the head job. -/
theorem exec_waitTimeout {t : Nat} (hcore : s.core = true) (hlive : s.live? i = some (x, j)) (hfrom : j.waitFrom = some t) :
    exec (.waitTimeout i) s = .next (finish s (
      if s.missed x j then (s.removeJob i j ST.lateDropped).advance
      else if j.waitUs != 0 && j.waits < j.leading && decide (t + j.waitUs * 1000 ≤ s.now) then (s.faultJob i 0x46 j.waits).advance
      else s)) := by
  show execWaitTimeout i s = _
  refine run_on hcore ?_
  rw [hlive]
  dsimp only
  rw [hfrom]

/-- A marked descriptor at a tile boundary. -/
theorem exec_preemptAtTileBoundary {o : Op} (hcore : s.core = true) (hop : s.opOf i d = some o) (hmarked : o.r.marked = true)
    (hhps : o.r.hps ≠ []) :
    exec (.preemptAtTileBoundary i d) s = .next (finish s (
      if (s.part o.r.part).step != 0 then (s.cutRun o.r).partStep3 o.r.part
      else (((s.cutOp o false).1.chargeRun o.r).saveRun o.r).advance)) := by
  have hgo : ¬(!o.r.marked || o.r.hps.isEmpty) = true := by simp [hmarked, hhps]
  show execPreemptAtTileBoundary i d s = _
  refine run_on hcore ?_
  rw [hop]
  exact if_neg hgo

/-- Which slot is free does not turn on the free values drawn. -/
theorem State.freeSlot_fresh (s : State) (n h : Nat) : ({ s with fresh := n } : State).freeSlot h = s.freeSlot h := rfl
end

/-- Settles O31: each row under its condition. -/
theorem jobRows : Obligations.JobRows := by
  refine ⟨fun s i d x j hcore hlive hwaits hlead hfrom => ?wait, fun s i d x j e hcore hlive hlead hnext hdesc hop hended hmissed hret
      hcheck => exec_syncSignal hcore hlive hlead hnext hdesc hop hended hmissed hret hcheck,
    fun s i d r hcore hrun hdone hhps hremote => ?ends, fun s i d o hcore hop hmarked hhps hstep => ?preempt, fun s r => ?save,
    fun s i x j t hcore hlive hfrom => ?timeout, fun s i o hcore hdue => ?resend, fun s hcore hat => ?recheck⟩
  case wait =>
    rw [exec_syncWait hcore hlive hwaits hlead hfrom]
    refine ⟨fun hmissed => ?_, fun hmissed hret => ?_, fun hmissed hret hcheck => ?_, fun c hmissed hret hcheck => ?_⟩
    · rw [if_pos hmissed]
    · rw [if_neg (ne_true_of_eq_false hmissed), if_pos (by simpa using hret)]
    · rw [if_neg (ne_true_of_eq_false hmissed), hret, hcheck]
      rfl
    · rw [if_neg (ne_true_of_eq_false hmissed), hret, hcheck]
      rfl
  case ends =>
    show execDescriptorEnd i d s = _
    refine run_on hcore ?_
    dsimp only
    rw [hrun]
    refine (if_neg ?_).trans ?_
    · simp [hdone, hhps, hremote]
    · rw [State.endDesc_of_run hrun]
  case preempt => rw [exec_preemptAtTileBoundary hcore hop hmarked hhps, if_neg (by simp [hstep])]
  case save =>
    unfold State.saveRun
    simp only [State.free, State.freeSlot_fresh]
  case timeout =>
    rw [exec_waitTimeout hcore hlive hfrom]
    refine ⟨fun hmissed => ?_, fun hmissed hus hlead hlate => ?_⟩
    · rw [if_pos hmissed]
    · rw [if_neg (ne_true_of_eq_false hmissed), if_pos (by rw [bne_iff_ne.2 hus, decide_eq_true hlead, decide_eq_true hlate]; rfl)]
  case resend =>
    show execRemoteWaitResend i s = _
    refine run_on hcore ?_
    dsimp only
    rw [hdue]
    rfl
  case recheck =>
    show execLatenessRecheck s = _
    exact run_on hcore (if_neg hat.symm)

end Sys2Proof.Machine
end

section
/-! Teardowns and resets (R208, R216 to R218, R230 to R234). -/
namespace Sys2Proof.Machine
open Sys2Proof

section
variable {s : State} {p n : Nat}

theorem State.atStep_of (hstep : (s.part p).step = n) (herr : s.sec.error = false) : s.atStep p n = true := by
  rw [State.atStep, hstep, herr, beq_self_eq_true]
  rfl

theorem State.atStep_of_error (herr : s.sec.error = true) (p n : Nat) : s.atStep p n = false := by
  rw [State.atStep, herr, Bool.not_true, Bool.and_false]

theorem Outstanding.drains_eq_false {o : Outstanding} (h : ¬(o.msg.part = p ∧ o.msg.typ ≠ mSyncOp ∧ o.unit.isSome = true)) :
    o.drains p = false := by
  rw [← Bool.not_eq_true]
  simpa [Outstanding.drains, and_assoc] using h

/-- What a reset of a master leaves as its tags' epoch. -/
theorem State.resetMaster_epochOf (s : State) (kind unit : Nat) :
    (s.resetMaster kind unit).epochOf kind unit = (s.epochOf kind unit + 1) % 16 := by
  unfold State.epochOf State.resetMaster
  rw [List.find?_cons_of_pos (by simp)]
  rfl
end

/-- Settles O32: each row under its condition; a reset stops at its step with Solram in ERROR. -/
theorem teardownRows : Obligations.TeardownRows := by
  refine ⟨fun s i x hcore hx hcan => ?teardown, fun s i d o hcore hop hmarked hhps hstep => ?cut,
    fun s p hcore hstep herr hdrained => ?drained, fun s kind unit count x hcore hx => ?retired, State.resetMaster_epochOf,
    fun s p b hcore hstep herr hb => ?scrubbed, fun s p hcore hstep herr => ?ready, fun s p b hcore herr => ⟨?drain, ?scrub, ?stays⟩,
    fun s b f hcore hfree => ?frame⟩
  case teardown =>
    show execStreamTeardown i s = _
    refine run_on hcore ?_
    dsimp only
    rw [hx]
    exact if_pos hcan
  case cut => rw [exec_preemptAtTileBoundary hcore hop hmarked hhps, if_pos (bne_iff_ne.2 hstep)]
  case drained =>
    show execPartDrainDone p s = _
    refine run_on hcore (if_pos ?_)
    have hall : (s.valley.outstanding.all fun o => !o.drains p) = true := by
      rw [List.all_eq_true]
      exact fun o ho => by rw [Outstanding.drains_eq_false (hdrained o ho)]; rfl
    rw [State.atStep_of hstep herr, hall]
    rfl
  case retired =>
    show execTagForceRetire kind unit count s = _
    exact run_on hcore (by rw [hx])
  case scrubbed =>
    show execPartHbmScrubDone p b s = _
    exact run_on hcore (if_pos (by rw [State.atStep_of hstep herr, hb]; rfl))
  case ready =>
    show execPartReady p s = _
    exact run_on hcore (if_pos (State.atStep_of hstep herr))
  case drain =>
    show execPartDrainDone p s = _
    exact run_on hcore (if_neg (by rw [State.atStep_of_error herr]; exact Bool.false_ne_true))
  case scrub =>
    show execPartHbmScrubDone p b s = _
    exact run_on hcore (if_neg (by rw [State.atStep_of_error herr]; exact Bool.false_ne_true))
  case stays =>
    show execPartReady p s = _
    exact run_on hcore (if_neg (by rw [State.atStep_of_error herr]; exact Bool.false_ne_true))
  case frame =>
    show execFrameScrubDone b f s = _
    exact run_on hcore (if_pos hfree)

end Sys2Proof.Machine
end

section
/-! The windows of the ledger and the end of over-commitment (R34, R245, R260 to R268). -/
namespace Sys2Proof.Machine
open Sys2Proof

section
variable {s : State}

theorem State.windowDue_of_begun (h : s.ledger.window = s.now / 1000 + 1) : s.windowDue = s := if_pos h

/-- The last step of a window's start: tokens granted, and the window noted as begun. -/
theorem State.grant_begun (v : State) : { v.grant with ledger := { v.grant.ledger with window := v.now / 1000 + 1 } } =
    let rs := v.ledger.resvs.map fun (r : Resv) =>
      (if r.inEffect then { r with tokens := r.factors.map fun f => r.amount * f / 32768 } else r)
    { v with
      ledger := { v.ledger with resvs := rs, window := v.now / 1000 + 1 },
      media := { v.media with cores := v.media.cores.mapIdx (creditCore rs) },
      basins := v.basins.map fun (b : Basin) => { b with used := 0, lcr := 0, mnt := 0, patrolDone := false } } := rfl

/-- A resource's recovery in a window that has begun. -/
theorem exec_ledgerRecovered {kind index dir : Nat} {x : Resource} (hcore : s.core = true)
    (hwindow : s.ledger.window = s.now / 1000 + 1)
    (hx : s.ledger.resources.find? (fun r => r.kind == kind && r.index == index && r.dir == dir) = some x) :
    exec (.ledgerRecovered kind index dir) s = .next (finish s (
      if x.overc && x.okSince.any (fun t => t + 100000000 ≤ s.windowBegan) && s.now ≤ s.windowBegan + 1 then
        let v : State := (s.updResource kind index dir fun r => { r with overc := false, windows := 0, okSince := none }).setFactors
          kind index dir (fun _ => 32768) true
        let u : State := if kind = 0 then v.updBasin index fun b => { b with cap := min 60 (b.cap + 10) } else v
        u.ledgerEvent EV.ledgerRecovered kind index dir (x.dAt u.windowBegan)
          (resvSum (s.ledger.resvs.filter fun r => r.kind == kind && r.index == index && r.inEffect))
      else s)) := by
  show execLedgerRecovered kind index dir s = _
  refine run_on hcore ?_
  dsimp only
  rw [State.windowDue_of_begun hwindow, hx]
end

/-- Settles O33: a window's start is that of its definition, and a recovery comes at one. -/
theorem ledgerRows : Obligations.LedgerRows := by
  refine ⟨fun s hcore hwindow => ?start, fun s kind index dir t x hcore hwindow hx hover hsince hlong hearly => ?recovered,
    fun s => rfl⟩
  case start =>
    rw [exec_windowStart_due hcore hwindow]
    exact congrArg _ (congrArg _ (State.grant_begun _))
  case recovered =>
    rw [exec_ledgerRecovered hcore hwindow hx, if_pos]
    rw [hover, any_due_iff.2 ⟨t, hsince, hlong⟩, decide_eq_true hearly]
    rfl

end Sys2Proof.Machine
end

section
/-! Basins in and out of service (R85, R90 to R98, R235, R246, R252, R253, R258). -/
namespace Sys2Proof.Machine
open Sys2Proof

section
variable {s : State} {b : Nat}

theorem State.decision_of_patrol (check : ReadCheck) (hissues : s.issues b = true) (hopen : s.patrolOpen b = true)
    (hlate : (s.basin b).patrol < (s.basin b).patrolAt s.now) : s.decision b check = s.patrolStep b check :=
  (if_neg (not_not_eq_true hissues)).trans (if_pos (by rw [hopen, decide_eq_true hlate]; rfl))

theorem State.decision_of_schedule (check : ReadCheck) (hissues : s.issues b = true)
    (h : s.patrolOpen b = false ∨ (s.basin b).patrolAt s.now ≤ (s.basin b).patrol) :
    s.decision b check = match s.arbitrate b with
      | some (q, deficit) => s.serve b q deficit check
      | none => s := by
  have hgo : ¬(s.patrolOpen b && decide ((s.basin b).patrol < (s.basin b).patrolAt s.now)) = true := by
    rw [Bool.and_eq_true, decide_eq_true_iff]
    rintro ⟨hopen, hlate⟩
    rcases h with h | h
    · exact Bool.false_ne_true (h.symm.trans hopen)
    · exact Nat.not_le.2 hlate h
  exact (if_neg (not_not_eq_true hissues)).trans (if_neg hgo)

/-- An arbitration of a Basin: its arrivals join the queue, and one in service takes a decision. -/
theorem exec_basinArbitrate (arrivals : List BasinReq) (check : ReadCheck) (hcore : s.core = true) (hb : b < 8)
    (hgood : ((s.windowDue.updBasin b fun x => x.arrive arrivals).basin b).state ≠ .failed) :
    exec (.basinArbitrate b arrivals check) s = .next (finish s ((s.windowDue.updBasin b fun x => x.arrive arrivals).decision b check)) := by
  show execBasinArbitrate b arrivals check s = _
  exact run_on hcore ((if_neg (Nat.not_le.2 hb)).trans (if_neg (by rw [beq_false_of_ne hgood]; exact Bool.false_ne_true)))

theorem exec_patrolScrub (check : ReadCheck) (hcore : s.core = true) (hb : b < 8) (hopen : s.windowDue.patrolOpen b = true)
    (hdue : (s.windowDue.basin b).patrol ≤ (s.windowDue.basin b).patrolAt s.windowDue.now) :
    exec (.patrolScrub b check) s = .next (finish s (s.windowDue.patrolStep b check)) := by
  show execPatrolScrub b check s = _
  exact run_on hcore (if_pos (by rw [decide_eq_true hb, hopen, decide_eq_true hdue]; rfl))

/-- A trigger of a retrain on a Basin in service. -/
theorem exec_basinRetrainTrigger (cause : RetrainCause) (hcore : s.core = true) (hb : b < 8) (hgood : (s.basin b).state ≠ .failed)
    (hstage : s.boot.stage = .ready ∨ s.boot.stage = .service) :
    exec (.basinRetrainTrigger b cause) s = .next (finish s (
      if cause = .temperature then
        if 20 ≤ ((s.basin b).temp - (s.basin b).trainTemp).natAbs then s.trigger b true else s
      else s.trigger b false)) := by
  have hgo : ¬(decide (8 ≤ b) || (s.basin b).state == .failed || !(s.boot.stage == .ready || s.boot.stage == .service)) = true := by
    rcases hstage with h | h <;> simp [hb, hgood, h]
  show execBasinRetrainTrigger b cause s = _
  refine run_on hcore ((if_neg hgo).trans ?_)
  cases cause <;> rfl

/-- A Basin's drain over, by what it is drained for. -/
theorem exec_basinDrainDone (b : Nat) (hcore : s.core = true) :
    exec (.basinDrainDone b) s = .next (finish s (
      if (s.basin b).psrDue && ((s.basin b).state == .drain || (s.basin b).state == .ready) then
        (s.updBasin b fun y => { y with psr := true, psrDue := false, state := .ready }).refreshD
      else if (s.basin b).state != .drain then s
      else if (s.basin b).repairing.isSome then s.updBasin b fun y => { y with state := .repair }
      else s.updBasin b fun y => { y with state := .train })) := by
  show execBasinDrainDone b s = _
  exact run_on hcore rfl

/-- The retrain or the repair that is due first. -/
theorem exec_retrainStart_basin {i t : Nat} {rep : Bool} (hcore : s.core = true) (hbasin : s.nextBasin = some (i, t, rep)) :
    exec .retrainStart s = .next (finish s (match s.nextPort with
      | some (j, u) => if t ≤ u then s.startBasin i rep else s.startPort j
      | none => s.startBasin i rep)) := by
  show execRetrainStart s = _
  refine run_on hcore ?_
  rw [hbasin]
  cases s.nextPort <;> rfl

/-- The end of a hard repair of a listed row. -/
theorem exec_hbmRepairDone {slot : Nat} {r : Req} {e : Defect} (ok : Bool) (bad : List Nat) (hcore : s.core = true)
    (hrep : (s.basin b).repairing = some (r, slot)) (hstate : (s.basin b).state = .repair) (hrow : s.rowEntry slot = some e) :
    exec (.hbmRepairDone b ok bad) s = .next (finish s (
      let lost := bad.filter fun k => affineBase ≤ k && (rowFrames16 e.loc).contains (k / 4096)
      let t : State := { s with mem := lost.foldl (fun m k => m.mark k true) s.mem }
      ((if ok then t.appendDefect { e with state := 3 } else t).basinReady b).complete r (if ok then ST.ok else ST.repairFailed))) := by
  show execHbmRepairDone b ok bad s = _
  refine run_on hcore ?_
  rw [hrep]
  refine (if_neg ?_).trans ?_
  · rw [hstate, bne_self_eq_false]
    exact Bool.false_ne_true
  · rw [hrow]
end

/-- Settles O34: each row by the state of its Basin and by what is due there. -/
theorem basinRows : Obligations.BasinRows := by
  refine ⟨fun s b arrivals check hcore hb => ?arbitrate, fun s b check hcore hb => ?patrol,
    fun s b rows hcore hb hready => ⟨fun hdue => ?report, fun t hat hearly => ?early⟩,
    fun s b rows again lanes hcore hb htrain hretrain => ?retrained,
    fun s b ok rows again lanes hcore hb hstage hretrain => ?trained, fun s b ok rows again lanes => ?next,
    fun s b hcore hb hgood hstage => ⟨fun h => ?hot, fun c hc => ?other⟩,
    fun s b hcore => ⟨fun hpsr hstate => ?psr, fun hpsr hstate hrep => ?repair, fun hpsr hstate hrep => ?train⟩,
    fun s i t rep hcore hbasin => ⟨fun hport => ?alone, fun j u hport h => ?basinFirst, fun j u hport h => ?portFirst⟩,
    fun s b slot r e bad hcore hrep hstate hrow => ⟨?repaired, ?repairFailed⟩⟩
  case arbitrate =>
    intro t hgood hissues
    have hexec := exec_basinArbitrate arrivals check hcore hb hgood
    refine ⟨fun hopen hlate => hexec.trans ?_, fun h => ⟨fun q dd harb => hexec.trans ?_, fun harb => hexec.trans ?_⟩⟩
    · exact congrArg _ (congrArg _ (State.decision_of_patrol check hissues hopen hlate))
    · refine congrArg _ (congrArg _ ((State.decision_of_schedule check hissues h).trans ?_))
      rw [harb]
    · refine congrArg _ (congrArg _ ((State.decision_of_schedule check hissues h).trans ?_))
      rw [harb]
  case patrol =>
    intro t hopen hdue
    exact exec_patrolScrub check hcore hb hopen hdue
  case report =>
    show execHbmEccReportRead b rows s = _
    exact run_on hcore (if_pos (by rw [decide_eq_true hb, hready, all_due_iff.2 hdue]; rfl))
  case early =>
    show execHbmEccReportRead b rows s = _
    refine run_on hcore (if_neg ?_)
    rw [hat, Option.all_some, decide_eq_false (Nat.not_le.2 hearly), Bool.and_false]
    exact Bool.false_ne_true
  case retrained =>
    show execBasinTrainDone b true rows again lanes s = _
    exact run_on hcore ((if_neg (Nat.not_le.2 hb)).trans (if_pos (by rw [htrain, hretrain]; rfl)))
  case trained =>
    show execBasinTrainDone b ok rows again lanes s = _
    refine run_on hcore ((if_neg (Nat.not_le.2 hb)).trans ((if_neg ?_).trans (if_pos ?_)))
    · rw [hretrain, Bool.and_false]
      exact Bool.false_ne_true
    · rcases hstage with h | h <;> rw [h] <;> rfl
  case next =>
    refine ⟨fun h => ?_, fun h => ?_, fun h => ?_, fun h => ?_, fun h => ?_, fun h => ?_, fun h h0 => ?_, fun h h0 => ?_, fun h => ?_⟩
    all_goals rw [State.basinNext, h]
    case refine_7 => exact (if_neg Bool.false_ne_true).trans (if_pos h0)
    case refine_8 => exact (if_neg Bool.false_ne_true).trans (if_neg h0)
    all_goals rfl
  case hot => rw [exec_basinRetrainTrigger .temperature hcore hb hgood hstage, if_pos rfl, if_pos h]
  case other => rw [exec_basinRetrainTrigger c hcore hb hgood hstage, if_neg hc]
  case psr =>
    rw [exec_basinDrainDone b hcore, if_pos]
    rcases hstate with h | h <;> rw [hpsr, h] <;> rfl
  case repair =>
    rw [exec_basinDrainDone b hcore, hpsr, hstate, hrep]
    rfl
  case train =>
    rw [exec_basinDrainDone b hcore, hpsr, hstate, hrep]
    rfl
  case alone => rw [exec_retrainStart_basin hcore hbasin, hport]
  case basinFirst =>
    rw [exec_retrainStart_basin hcore hbasin, hport]
    exact congrArg _ (congrArg _ (if_pos h))
  case portFirst =>
    rw [exec_retrainStart_basin hcore hbasin, hport]
    exact congrArg _ (congrArg _ (if_neg (Nat.not_le.2 h)))
  case repaired => simp only [exec_hbmRepairDone true bad hcore hrep hstate hrow, if_true]
  case repairFailed => simp only [exec_hbmRepairDone false bad hcore hrep hstate hrow, Bool.false_eq_true, if_false]

end Sys2Proof.Machine
end

section
/-! Pass ports: their training, their flits, and the messages that they bring (R354 to R369). -/
namespace Sys2Proof.Machine
open Sys2Proof

section
variable {s : State} {p : Nat}

theorem State.portReset_live (hlive : (s.port p).live = true) : s.portReset p =
    (((s.resetMaster 2 p).updPort p fun x => { x with queued := some s.now }).portDown p).noteRoutes.refreshD :=
  if_neg (not_not_eq_true hlive)

/-- The end of a training state of a port, by the state and by how it ended. -/
theorem exec_passTrainStateDone (r : TrainResult) (hcore : s.core = true) (hp : p < 24) :
    exec (.passTrainStateDone p r) s = .next (finish s (match (s.port p).state, r with
      | .equalise, .ok _ => match s.laneSet p (s.port p).cand with
        | some i => s.updPort p fun y => { y with state := .fecLock, cand := i }
        | none => s.portFails p
      | .fecLock, .ok _ => s.updPort p fun y => { y with state := .coenoInit }
      | .coenoInit, .ok i => if (s.port p).authFailed then s else if s.authOk i then s.portUp p i else s.authFails p
      | .equalise, .failed l => s.trainFails p l
      | .fecLock, .failed l => s.trainFails p l
      | .coenoInit, .failed _ => if (s.port p).authFailed then s else s.authFails p
      | _, _ => s)) := by
  show execPassTrainStateDone p r s = _
  exact run_on hcore (if_neg (Nat.not_le.2 hp))
end

/-- Settles O36: each row by the state of its port; a port brought down is reset as a master (R98, R233). -/
theorem portRows : Obligations.PortRows := by
  refine ⟨fun s p hcore hp hdetect hrails hboot => ?signal,
    fun s p info hcore hp => ⟨fun i hstate hlane => ?equalised, fun hstate => ?locked, fun hstate hauth hok => ?up,
      fun hstate hauth hbad => ?unauthentic⟩,
    fun s p l hcore hp hstate => ⟨?failed, ?timeout⟩, fun s p ppm hcore hlive hppm => ?drift,
    fun s p hcore hlive hidle => ?idle⟩
  case signal =>
    show execPassSignalDetect p s = _
    refine run_on hcore (if_pos ?_)
    rw [hdetect, decide_eq_true hp, beq_false_of_ne hrails, beq_false_of_ne hboot]
    rfl
  case equalised =>
    rw [exec_passTrainStateDone _ hcore hp, hstate]
    dsimp only
    rw [hlane]
  case locked => rw [exec_passTrainStateDone _ hcore hp, hstate]
  case up =>
    rw [exec_passTrainStateDone _ hcore hp, hstate]
    exact congrArg _ (congrArg _ ((if_neg (ne_true_of_eq_false hauth)).trans (if_pos hok)))
  case unauthentic =>
    rw [exec_passTrainStateDone _ hcore hp, hstate]
    exact congrArg _ (congrArg _ ((if_neg (ne_true_of_eq_false hauth)).trans (if_neg (ne_true_of_eq_false hbad))))
  case failed => rcases hstate with h | h <;> rw [exec_passTrainStateDone _ hcore hp, h]
  case timeout =>
    show execPassTrainTimeout p s = _
    refine run_on hcore ((if_neg (Nat.not_le.2 hp)).trans (if_pos ?_))
    rcases hstate with h | h <;> rw [h] <;> rfl
  case drift =>
    show execPassDriftRetrain p ppm s = _
    exact run_on hcore ((if_pos hppm).trans (State.portReset_live hlive))
  case idle => rw [exec_portIdleTimeout hcore, if_pos hidle, State.portReset_live hlive]

section
variable {s : State} {p : Nat}

/-- A flit at a live port: its check, then its acknowledgement, then its place in the sequence. -/
theorem exec_flitReceive (f : Flit) (hcore : s.core = true) (hlive : (s.port p).live = true) :
    exec (.flitReceive p f) s = .next (finish s (
      let b : State := (s.flitHeard p).flitAcked p f
      if !f.checkOk then (s.flitHeard p).askReplay p
      else if f.idle || !(b.port p).live then b
      else if f.seq % 4096 = (b.port p).rxNext then b.flitTaken p f
      else if coveredBy ((b.port p).rxNext + 4095) f.seq then b
      else b.askReplay p)) := by
  show execFlitReceive p f s = _
  exact run_on hcore (if_neg (not_not_eq_true hlive))

/-- A flit that a live port sends: from the replay buffer, new, or idle. -/
theorem exec_flitSend (hcore : s.core = true) (hlive : (s.windowDue.port p).live = true) :
    exec (.flitSend p) s = .next (finish s (
      let t := s.windowDue
      let x := t.port p
      match x.replayFrom with
      | some q =>
        let due := x.replay.dropWhile (·.seq != q)
        (t.updPort p fun y => { y with replayFrom := (due.drop 1).head?.map (·.seq) }).left p (due.headD x.idleFlit)
      | none =>
        if 1024 ≤ x.replay.length then t.left p x.idleFlit
        else match t.nextVc p with
          | some vc => t.newFlit p vc
          | none => t.left p x.idleFlit)) := by
  show execFlitSend p s = _
  exact run_on hcore (if_neg (not_not_eq_true hlive))
end

/-- Settles O37: a flit received by its check, its sequence number and what is expected next; a flit sent by what there is to
send. -/
theorem flitRows : Obligations.FlitRows := by
  refine ⟨fun s p f hcore hlive => ?received, fun s p hcore => ?sent, fun s p f => rfl, fun s p f hblank => if_pos hblank,
    fun s p f hkeyed => if_neg hkeyed⟩
  case received =>
    intro b
    have hexec := exec_flitReceive f hcore hlive
    have hpass (h : f.checkOk = true) : ¬(!f.checkOk) = true := not_not_eq_true h
    have hnew (hidle : f.idle = false) (hb : (b.port p).live = true) : ¬(f.idle || !(b.port p).live) = true := by
      rw [hidle, hb]
      exact Bool.false_ne_true
    refine ⟨fun hbad => hexec.trans (congrArg _ (congrArg _ (if_pos (by rw [hbad]; rfl)))), fun hok hend => ?_, fun hok hidle hb hseq => ?_,
      fun hok hidle hb hseq => ?_⟩ <;> refine hexec.trans (congrArg _ (congrArg _ ((if_neg (hpass hok)).trans ?_)))
    · refine if_pos ?_
      rcases hend with h | h
      · rw [h, Bool.true_or]
      · rw [h]
        exact Bool.or_true _
    · exact (if_neg (hnew hidle hb)).trans (if_pos hseq)
    · exact (if_neg (hnew hidle hb)).trans (if_neg hseq)
  case sent =>
    intro t hlive idle
    have hexec := exec_flitSend hcore hlive
    refine ⟨fun q hreplay => ?_, fun hreplay hfull => ?_, fun vc hreplay hroom hvc => ?_, fun hreplay hroom hvc => ?_⟩ <;>
      refine hexec.trans (congrArg _ (congrArg _ ?_)) <;> dsimp only <;> rw [hreplay]
    · rfl
    · exact if_pos hfull
    · refine (if_neg (Nat.not_le.2 hroom)).trans ?_
      rw [hvc]
    · refine (if_neg (Nat.not_le.2 hroom)).trans ?_
      rw [hvc]
      rfl

/-! ### Messages -/

section
variable {s : State} {p : Nat} {g : Msg}

/-- A row of a message that is delivered: what it does, on the state once the message is taken, and then what stands behind it. -/
theorem arrive_on {f : State → State} {u : State} (h : Delivered p g s) (e : f (s.taken1 p g) = u) :
    run State.core s (fun s => s.arrive p g f) = .next (finish s (s.onward p g u)) :=
  run_on h.1 ((arrive_delivered h f).trans (congrArg _ e))

theorem if_type_eq {α : Type} {a b : Nat} {x y : α} (h : a = b) : (if (a != b) = true then x else y) = y :=
  if_neg (by rw [h, bne_self_eq_false]; exact Bool.false_ne_true)

/-- A memory request that may be served is served at once. -/
theorem State.memReq_served (hallowed : s.denies g = none) (hawake : s.retPlains g = []) (hservable : s.servable g = true) :
    s.memReq g = (s.unholdReq g.src g.tag).serveMem g := by
  rw [State.memReq, hallowed]
  dsimp only
  rw [hawake]
  exact (if_neg Bool.false_ne_true).trans (if_neg (not_not_eq_true hservable))

theorem State.onceOnly_known {d : Dedup} (f : State → State) (hknown : s.dedupOf g = some d) :
    s.onceOnly g f = s.send d.response := by
  rw [State.onceOnly, hknown]

theorem State.onceOnly_new (f : State → State) (hnew : s.dedupOf g = none)
    (hheld : ∀ h ∈ s.valley.heldReqs, ¬(h.1.src = g.src ∧ h.1.tag = g.tag)) (hroom : s.valley.dedup.length < dedupSize) :
    s.onceOnly g f = f s := by
  have hnone : (s.valley.heldReqs.any fun h => h.1.src == g.src && h.1.tag == g.tag) = false := by
    simpa only [List.any_eq_false, Bool.and_eq_true, beq_iff_eq] using hheld
  rw [State.onceOnly, hnew]
  exact (if_neg (ne_true_of_eq_false hnone)).trans (if_neg (Nat.not_le.2 hroom))

theorem State.answered_of {o : Outstanding} (f : State → Outstanding → State) (h : s.outst g.src g.tag = some o) :
    s.answered g f = f (s.releaseTag g.src g.tag) o := by
  rw [State.answered, h]

/-- What the answer to a read does: it fills the view, and a failure of what it read faults the job. -/
theorem exec_rdRsp {o : Outstanding} (h : Delivered p g s) (htyp : g.typ = mRdRsp) (hout : (s.taken1 p g).outst g.src g.tag = some o)
    (hread : o.msg.typ = mRdReq) :
    exec (.rdRsp p g) s = .next (finish s (s.onward p g (
      let u : State := (s.taken1 p g).releaseTag g.src g.tag
      if u.absorbs o || o.stale then u
      else
        let v := u.fillView g.src o.msg.addr (padTo (o.msg.len * 64) g.data)
        match g.ext, o.job with
        | some (m, _), some (i, d) => if m = 0 then v else (v.faultJob i 0x44 d).advance
        | _, _ => v))) := by
  show execRdRsp p g s = _
  refine arrive_on h ((if_type_eq htyp).trans ((State.answered_of _ hout).trans ?_))
  have hcond : (o.msg.typ != mRdReq || ((s.taken1 p g).releaseTag g.src g.tag).absorbs o || o.stale) =
      (((s.taken1 p g).releaseTag g.src g.tag).absorbs o || o.stale) := by
    rw [hread, bne_self_eq_false, Bool.false_or]
  by_cases hgone : (((s.taken1 p g).releaseTag g.src g.tag).absorbs o || o.stale) = true
  · exact (if_pos (hcond.trans hgone)).trans (if_pos hgone).symm
  · refine (if_neg fun h => hgone (hcond.symm.trans h)).trans (Eq.trans ?_ (if_neg hgone).symm)
    rcases g.ext with _ | ⟨m, b⟩ <;> rcases o.job with _ | ⟨i, d⟩ <;> rfl
end

/-- Settles O38: each row by its type, by the deduplication table and by the request that a response answers. -/
theorem requestRows : Obligations.RequestRows := by
  intro s p g h t
  refine ⟨fun htyp hallowed hawake hservable => ?read, fun htyp hnew hheld hroom hallowed hawake hservable => ?write,
    fun d htyp hknown => ?again, fun htyp hnew hheld hroom => ?sync,
    fun o htyp hout hread => ⟨fun habsorbed => ?absorbed, fun hlive hfresh hext => ?filled,
      fun m b i d hlive hfresh hext hm hjob => ?poisoned⟩,
    fun o htyp hout => ?acked, fun o i d htyp hout hjob hwait => ?satisfied, fun htyp hother => ?refused, fun htyp => ?hold,
    fun htyp => ?release⟩
  case read =>
    show execRdReq p g s = _
    exact arrive_on h ((if_type_eq htyp).trans (State.memReq_served hallowed hawake hservable))
  case write =>
    show execWrReq p g s = _
    exact arrive_on h ((if_type_eq htyp).trans
      ((State.onceOnly_new _ hnew hheld hroom).trans (State.memReq_served hallowed hawake hservable)))
  case again =>
    show execWrReq p g s = _
    exact arrive_on h ((if_type_eq htyp).trans (State.onceOnly_known _ hknown))
  case sync =>
    show execSyncOp p g s = _
    exact arrive_on h ((if_type_eq htyp).trans (congrArg _ (State.onceOnly_new _ hnew hheld hroom)))
  case absorbed =>
    refine (exec_rdRsp h htyp hout hread).trans (congrArg _ (congrArg _ (congrArg _ (if_pos ?_))))
    rcases habsorbed with e | e
    · rw [e, Bool.true_or]
    · rw [e, Bool.or_true]
  case filled =>
    refine (exec_rdRsp h htyp hout hread).trans (congrArg _ (congrArg _ (congrArg _ ((if_neg ?_).trans ?_))))
    · rw [hlive, hfresh]
      exact Bool.false_ne_true
    · rw [hext]
  case poisoned =>
    refine (exec_rdRsp h htyp hout hread).trans (congrArg _ (congrArg _ (congrArg _ ((if_neg ?_).trans ?_))))
    · rw [hlive, hfresh]
      exact Bool.false_ne_true
    · rw [hext, hjob]
      exact if_neg hm
  case acked =>
    show execWrAck p g s = _
    exact arrive_on h ((if_type_eq htyp).trans (State.answered_of _ hout))
  case satisfied =>
    show execSyncRsp p g s = _
    refine arrive_on h ((if_type_eq htyp).trans ((State.answered_of _ hout).trans ?_))
    dsimp only
    rw [hjob]
    exact if_pos hwait
  case refused =>
    show execRefuse p g s = _
    refine run_on h.1 ((if_type_eq htyp).trans ((if_neg ?_).trans (arrive_delivered h _)))
    rw [List.contains_iff_mem]
    exact hother
  case hold =>
    show execHold p g s = _
    exact arrive_on h (if_type_eq htyp)
  case release =>
    show execRelease p g s = _
    exact arrive_on h (if_type_eq htyp)

section
variable {s : State}

/-- The timer of a held request: applied where it can be, else answered HOLD each 2 ms. -/
theorem exec_holdTimer {src tag t : Nat} {g : Msg} (hcore : s.core = true)
    (hheld : s.valley.heldReqs.find? (fun h => h.1.src == src && h.1.tag == tag) = some (g, t)) :
    exec (.holdTimer src tag) s = .next (finish s (
      if g.typ != mSyncOp && s.servable g && (s.retPlains g).isEmpty then s.memReq g
      else if t + 2000000 ≤ s.now then
        State.respond { s with valley := { s.valley with heldReqs := s.valley.heldReqs.map fun (h : Msg × Nat) =>
          if h.1.src == src && h.1.tag == tag then (h.1, s.now) else h } } g mHold []
      else s)) := by
  show execHoldTimer src tag s = _
  refine run_on hcore ?_
  rw [hheld]

/-- The timer of an unanswered request: sent again, or its chip lost. -/
theorem exec_requestTimerExpiry {dst tag : Nat} {o : Outstanding} (hcore : s.core = true) (hout : s.outst dst tag = some o)
    (hdue : o.since + 4000000 ≤ s.now) :
    exec (.requestTimerExpiry dst tag) s = .next (finish s (
      if 15 ≤ o.expiries then s.declareLost dst 3
      else (s.updOut dst tag fun y => { y with expiries := y.expiries + 1, since := s.now }).send o.msg)) := by
  show execRequestTimerExpiry dst tag s = _
  refine run_on hcore ?_
  rw [hout]
  exact if_neg (Nat.not_lt.2 hdue)
end

/-- Settles O39: each timer by the request that it belongs to. -/
theorem requestTimerRows : Obligations.RequestTimerRows := by
  refine ⟨fun s src tag t g hcore hheld => ⟨fun htyp hservable hawake => ?apply, fun hstill hdue => ?hold⟩,
    fun s dst tag o hcore hout hdue => ⟨fun hfew => ?resend, fun hmany => ?lost⟩, fun s src tag hcore => ?dedup,
    fun s dst tag t o hcore hout hat hdue => ?full, fun s p g hcore htyp hself => ?own⟩
  case apply =>
    rw [exec_holdTimer hcore hheld, if_pos]
    rw [bne_iff_ne.2 htyp, hservable, hawake]
    rfl
  case hold =>
    rw [exec_holdTimer hcore hheld, if_neg, if_pos hdue]
    simp only [Bool.and_eq_true, bne_iff_ne, List.isEmpty_iff]
    rintro ⟨⟨htyp, hservable⟩, hawake⟩
    rcases hstill with h | h | h
    · exact htyp h
    · exact ne_true_of_eq_false h hservable
    · exact h hawake
  case resend => rw [exec_requestTimerExpiry hcore hout hdue, if_neg (Nat.not_le.2 (Nat.lt_succ_iff.1 (Nat.succ_lt_succ hfew)))]
  case lost => rw [exec_requestTimerExpiry hcore hout hdue, if_pos hmany]
  case dedup =>
    show execDedupEntryExpiry src tag s = _
    exact run_on hcore rfl
  case full =>
    show execDedupFullResend dst tag s = _
    refine run_on hcore ?_
    rw [hout]
    exact if_pos (by rw [hat]; exact decide_eq_true hdue)
  case own =>
    show execRefuse p g s = _
    exact run_on hcore ((if_type_eq htyp).trans (if_pos (List.contains_iff_mem.2 hself)))

end Sys2Proof.Machine
end

section
/-! Messages of collectives and of peers (R366 to R383). -/
namespace Sys2Proof.Machine
open Sys2Proof

section
variable {s : State} {p : Nat} {g : Msg}

theorem if_control_eq {α : Type} {a b : Nat} {x y : α} {kind k : Nat} (h : a = b) (hkind : kind = k) :
    (if (a != b || kind != k) = true then x else y) = y :=
  if_neg (by rw [h, hkind, bne_self_eq_false, bne_self_eq_false]; exact Bool.false_ne_true)

/-- A COLL_CTRL of its kind from a member of its group. -/
theorem State.ctrlFrom_member {kind : Nat} {x : Group} (f : State → Group → State) (h : Delivered p g s) (htyp : g.typ = mCollCtrl)
    (hkind : msgNat g 0 1 = kind) (hgroup : (s.taken1 p g).groupBy g.part (msgNat g 4 4) = some x) (hmember : g.src ∈ x.members) :
    s.ctrlFrom p g kind f = s.onward p g (f (s.taken1 p g) x) := by
  refine (arrive_delivered h _).trans (congrArg _ ((if_control_eq htyp hkind).trans ?_))
  rw [hgroup]
  exact if_pos (List.contains_iff_mem.2 hmember)

/-- COLL_DATA of a member of a group that is not aborted: new to the group, and of a collective that has not ended, it is staged. -/
theorem exec_collData_staged {x : Group} {r : Nat} (h : Delivered p g s) (htyp : g.typ = mCollData)
    (hgroup : (s.taken1 p g).groupBy g.part (msgNat g 0 4) = some x) (hrank : x.rankOf g.src = some r) (hrun : x.aborted = none)
    (hnew : ∀ q ∈ x.staged, ¬(q.seq = msgNat g 4 4 ∧ q.rank = r ∧ q.off = msgNat g 8 8)) (hseq : x.nextSeq ≤ msgNat g 4 4)
    (hnone : x.colls.find? (·.seq == msgNat g 4 4) = none) :
    exec (.collData p g) s = .next (finish s (s.onward p g ((s.taken1 p g).updGroup x.index fun z => { z with staged := z.staged ++
      [{ seq := msgNat g 4 4, rank := r, params := msgNat g 24 16, off := msgNat g 8 8,
         data := (g.data.drop 64).take (msgNat g 16 8) }] }).collSteps)) := by
  have hstaged : (x.staged.any fun q => q.seq == msgNat g 4 4 && q.rank == r && q.off == msgNat g 8 8) = false := by
    simpa only [List.any_eq_false, Bool.and_eq_true, beq_iff_eq, and_assoc] using hnew
  show execCollData p g s = _
  refine arrive_on h ((if_type_eq htyp).trans ?_)
  rw [hgroup]
  dsimp only
  rw [hrank]
  refine (if_neg ?_).trans ?_
  · rw [hrun, hstaged, decide_eq_false (Nat.not_lt.2 hseq)]
    exact Bool.false_ne_true
  · rw [hnone]
end

/-- Settles O40: each message by its group; a timeout by the collective that has reached its limit. -/
theorem collectiveRows : Obligations.CollectiveRows := by
  refine ⟨fun s p g x h => ?messages, fun s i x c hcore hgroup hlate => ?timeout⟩
  case messages =>
    intro t
    refine ⟨fun r htyp hgroup hrank hrun hnew hseq hnone => exec_collData_staged h htyp hgroup hrank hrun hnew hseq hnone,
      fun htyp hkind hgroup => ?ready, fun htyp hkind hgroup => ?early, fun htyp hkind hgroup hmember hstarted => ?slow,
      fun htyp hkind hgroup hmember => ?withdrawn, fun htyp hkind hgroup hmember => ?abort⟩
    case ready =>
      show execCollReady p g s = _
      refine arrive_on h ((if_control_eq htyp hkind).trans ?_)
      rw [hgroup]
    case early =>
      show execCollReady p g s = _
      refine arrive_on h ((if_control_eq htyp hkind).trans ?_)
      rw [hgroup]
    case slow =>
      show execCollSlow p g s = _
      exact run_on h.1 ((State.ctrlFrom_member _ h htyp hkind hgroup hmember).trans (congrArg _ (if_pos hstarted)))
    case withdrawn =>
      show execCollWithdrawn p g s = _
      exact run_on h.1 (congrArg _ (State.ctrlFrom_member _ h htyp hkind hgroup hmember))
    case abort =>
      show execCollAbort p g s = _
      exact run_on h.1 (congrArg _ (State.ctrlFrom_member _ h htyp hkind hgroup hmember))
  case timeout =>
    show execCollTimeout i s = _
    refine run_on hcore ?_
    rw [hgroup]
    dsimp only
    rewrite [hlate]
    rfl

section
variable {s : State} {p : Nat} {g : Msg}

/-- The state of a port once the heartbeat `g` has been heard there. -/
def State.beatHeard (s : State) (p : Nat) (g : Msg) : State :=
  s.updPort p fun x => { x with
    echo := some (msgNat g 0 8, s.now), peerRoot := msgNat g 24 2, peerHops := msgNat g 26 1, peerState := msgNat g 27 1 }

theorem State.beatHeard_valley (s : State) : (s.beatHeard p g).valley = s.valley := rfl

/-- A heartbeat: what it says of the peer is kept, and a fresh echo of the parent's is followed. -/
theorem exec_heartbeat (h : Delivered p g s) (htyp : g.typ = mHeartbeat) :
    exec (.heartbeat p g) s = .next (finish s (s.onward p g (
      let u : State := (s.taken1 p g).beatHeard p g
      if u.valley.joined && (msgNat g 8 8 != 0 && msgNat g 16 8 != 0 && decide ((s.taken1 p g).now ≤ msgNat g 8 8 + 1000000)) &&
          u.timeRoot != u.chip && u.parent == some p
      then u.follow (beatOffset g (s.taken1 p g).now) else u))) := by
  show execHeartbeat p g s = _
  exact arrive_on h (if_type_eq htyp)

theorem exec_loss (h : Delivered p g s) (htyp : g.typ = mLoss) :
    exec (.loss p g) s = .next (finish s (s.onward p g (
      if msgNat g 0 2 % 4096 = (s.taken1 p g).chip then (s.taken1 p g).expel
      else (s.taken1 p g).declareLost (msgNat g 0 2 % 4096) 1))) := by
  show execLoss p g s = _
  refine arrive_on h ((if_type_eq htyp).trans ?_)
  dsimp only

theorem exec_ownerNotice (h : Delivered p g s) (htyp : g.typ = mOwnerNotice) :
    exec (.ownerNotice p g) s = .next (finish s (s.onward p g (
      if (g.dst != (s.taken1 p g).chip) = true then (s.taken1 p g).forward g
      else ((s.taken1 p g).ownersReset (· == ⟨g.src, msgNat g 4 1, msgNat g 0 4⟩) (msgNat g 5 1)).advance))) := by
  show execOwnerNotice p g s = _
  exact arrive_on h (if_type_eq htyp)
end

/-- Settles O41: the sending of heartbeats by when they last went out; each message by its type. -/
theorem peerRows : Obligations.PeerRows := by
  refine ⟨fun s hcore => ⟨fun hdue => ?beat, fun t hat hle hlt => ?noBeat⟩, fun s p g h => ?messages,
    fun s chip t r hcore hroute hdown hdue => ?noRoute⟩
  case beat =>
    have hany : (s.valley.beatAt.any fun t => decide (t ≤ s.now) && decide (s.now < t + 100000)) = false := by
      cases hat : s.valley.beatAt with
      | none => rfl
      | some t =>
        rw [Option.any_some, ← Bool.not_eq_true, Bool.and_eq_true, decide_eq_true_iff, decide_eq_true_iff]
        rintro ⟨hle, hlt⟩
        rcases hdue t hat with h | h
        · exact Nat.not_lt.2 hle h
        · exact Nat.not_lt.2 h hlt
    show execHeartbeatSend s = _
    exact run_on hcore (if_neg (ne_true_of_eq_false hany))
  case noBeat =>
    show execHeartbeatSend s = _
    refine run_on hcore (if_pos ?_)
    rw [hat, Option.any_some, decide_eq_true hle, decide_eq_true hlt]
    rfl
  case messages =>
    intro t heard
    refine ⟨fun htyp hout => ?outside, fun htyp hin hsent hecho hfresh hroot hparent => ?follow, fun htyp => ?join,
      fun htyp => ?leave, fun htyp hother => ?loss, fun htyp hself => ?expel, fun htyp hmine => ?notice, fun htyp hother => ?onward⟩
    case outside =>
      refine (exec_heartbeat h htyp).trans (congrArg _ (congrArg _ (congrArg _ (if_neg ?_))))
      rw [State.beatHeard_valley, hout]
      exact Bool.false_ne_true
    case follow =>
      refine (exec_heartbeat h htyp).trans (congrArg _ (congrArg _ (congrArg _ (if_pos ?_))))
      have hunder : ((s.taken1 p g).beatHeard p g).timeRoot ≠ ((s.taken1 p g).beatHeard p g).chip := hroot
      have hfrom : ((s.taken1 p g).beatHeard p g).parent = some p := hparent
      rw [State.beatHeard_valley, hin, bne_iff_ne.2 hsent, bne_iff_ne.2 hecho, decide_eq_true hfresh, bne_iff_ne.2 hunder, hfrom, beq_self_eq_true]
      rfl
    case join =>
      show execJoin p g s = _
      exact arrive_on h (if_type_eq htyp)
    case leave =>
      show execLeave p g s = _
      exact arrive_on h (if_type_eq htyp)
    case loss => exact (exec_loss h htyp).trans (congrArg _ (congrArg _ (congrArg _ (if_neg hother))))
    case expel => exact (exec_loss h htyp).trans (congrArg _ (congrArg _ (congrArg _ (if_pos hself))))
    case notice => exact (exec_ownerNotice h htyp).trans (congrArg _ (congrArg _ (congrArg _ (if_type_eq hmine))))
    case onward => exact (exec_ownerNotice h htyp).trans (congrArg _ (congrArg _ (congrArg _ (if_pos (bne_iff_ne.2 hother)))))
  case noRoute =>
    show execNoRouteTimeout chip s = _
    refine run_on hcore ?_
    rw [hroute]
    refine if_pos ?_
    rw [hdown, Option.any_some, decide_eq_true hdue]

end Sys2Proof.Machine
end

section
/-! The media complex (R386 to R401), and errors that are detected (R441, R442). -/
namespace Sys2Proof.Machine
open Sys2Proof

section
variable {s : State}

/-- A latch of an encoder that is open, not closing, and has not latched at this stamp. -/
theorem exec_frameLatch {i k : Nat} {x y : Enc} {t : State} (hcore : s.core = true) (henc : s.enc? i = some x)
    (hlatch : x.latchAt s.now = some k) (hopen : x.openAt ≤ s.now) (hfirst : x.lastLatch ≠ some s.now) (hclosing : x.closing = none)
    (ht : (List.range 8).foldl (fun s n => s.judge i n s.now)
      (s.updEnc i fun y => ({ y.settle s.now with lastLatch := some s.now } : Enc)) = t)
    (hy : t.enc? i = some y) :
    exec (.frameLatch i) s = .next (finish s (
      let f : Frame := { stamp := t.now, k := k % 2 ^ 32, stage := if y.undecided then 0 else 1, key := y.keyDue }
      let u : State := t.updEnc i fun z => { z with keyDue := false, waiting := if y.coreLost then none else some f }
      let v : State := y.waiting.elim u (u.skip i)
      if y.coreLost then v.skip i f else v)) := by
  show execFrameLatch i s = _
  refine run_on hcore ?_
  rw [henc]
  dsimp only
  rw [hlatch]
  refine (if_neg ?_).trans ?_
  · rw [decide_eq_false (Nat.not_lt.2 hopen), beq_false_of_ne hfirst, hclosing]
    exact Bool.false_ne_true
  · rw [ht, hy]
    dsimp only
    cases y.waiting <;> rfl

/-- A media core begins a row: it is idle and in service. -/
theorem mediaRowStart_idle {core : Nat} (hcore : core < 16) (hidle : (s.media.cores.getD core {}).row = none)
    (hok : bit s.boot.mediaOk.toNat core = true) :
    ¬(decide (16 ≤ core) || (s.media.cores.getD core {}).row.isSome || !bit s.boot.mediaOk.toNat core) = true := by
  rw [decide_eq_false (Nat.not_le.2 hcore), hidle, hok]
  exact Bool.false_ne_true

/-- The end of a row of a decoder, by what the decoder gave. -/
theorem exec_mediaRowEnd_decoder {core n : Nat} {d : Dec} (r : RowEnd) (hcore : s.core = true)
    (hrow : (s.media.cores.getD core {}).row = some n) (hn : 2048 ≤ n) (hvoid : (s.media.cores.getD core {}).void = false)
    (hdec : s.dec? (n - 2048) = some d) :
    exec (.mediaRowEnd core r) s = .next (finish s (
      let t := s.updCore core fun c => c.debit d.resv.head? (rowTime r)
      match r with
      | .row _ used part => t.decRow d used part
      | .frame _ w h ten rap used order out luma chroma => t.decFrame d w h ten rap used order out luma chroma
      | .damage _ cause off x y => t.decDamage d cause off x y
      | .picture _ => t)) := by
  show execMediaRowEnd core r s = _
  refine run_on hcore ?_
  rw [hrow]
  refine (if_neg (ne_true_of_eq_false hvoid)).trans ((if_neg (Nat.not_lt.2 hn)).trans ?_)
  cases r <;> rw [hdec]
end

/-- Settles O42: a latch by what the context holds, a row by the core that takes it and by what it gave. -/
theorem mediaRows : Obligations.MediaRows := by
  refine ⟨fun s i k x hcore henc hlatch hopen hfirst hclosing => ?latch, fun s i hcore => ?grace, fun s x hcore => ?compose,
    fun s core x hcore hcodec => ?encode, fun s core x hcore hlow hhigh => ?decode, fun x f => ⟨rfl, ?qp⟩,
    fun s core n r x hcore hrow hn hvoid henc => ?encoded, fun s core n d hcore hrow hn hvoid hdec => ?decoded⟩
  case latch =>
    intro t
    generalize ht : t = judged
    intro y hy f u
    have hexec := exec_frameLatch hcore henc hlatch hopen hfirst hclosing ht hy
    refine ⟨fun hkept hnone => ?_, fun w hkept hwait => ?_, fun hlost hnone => ?_, fun w hlost hwait => ?_⟩ <;>
      refine hexec.trans (congrArg _ (congrArg _ ?_)) <;> dsimp only
    · rw [hnone]
      exact if_neg (ne_true_of_eq_false hkept)
    · rw [hwait]
      exact if_neg (ne_true_of_eq_false hkept)
    · rw [hnone]
      exact if_pos hlost
    · rw [hwait]
      exact if_pos hlost
  case grace =>
    show execLayerGraceExpiry i s = _
    exact run_on hcore rfl
  case compose =>
    intro t hnext u
    show execComposeFrame s = _
    refine run_on hcore ?_
    dsimp only
    rw [hnext]
  case encode =>
    intro t hidle hok hnext
    show execMediaRowStart core s = _
    refine run_on hcore ((if_neg (mediaRowStart_idle (Nat.lt_trans hcodec (by decide)) hidle hok)).trans ((if_pos hcodec).trans ?_))
    rewrite [hnext]
    rfl
  case decode =>
    intro t hidle hok hnext
    show execMediaRowStart core s = _
    refine run_on hcore ((if_neg (mediaRowStart_idle hhigh hidle hok)).trans ((if_neg (Nat.not_lt.2 hlow)).trans ?_))
    rw [hnext]
  case qp => exact (List.length_map ..).trans List.length_range
  case encoded =>
    show execMediaRowEnd core r s = _
    refine run_on hcore ?_
    rw [hrow]
    refine (if_neg (ne_true_of_eq_false hvoid)).trans ((if_pos hn).trans ?_)
    rw [henc]
  case decoded =>
    exact ⟨fun _ _ _ => exec_mediaRowEnd_decoder _ hcore hrow hn hvoid hdec,
      fun _ _ _ _ _ _ _ _ _ _ => exec_mediaRowEnd_decoder _ hcore hrow hn hvoid hdec,
      fun _ _ _ _ _ => exec_mediaRowEnd_decoder _ hcore hrow hn hvoid hdec⟩

/-! ### Errors -/

section
variable {s : State}

theorem State.EventsOnly.media {t : State} (h : s.EventsOnly t) : t.media = s.media := by
  obtain ⟨_, _, _, _, rfl⟩ := h
  rfl

theorem State.transient_media (s : State) (typ loc : Nat) : (s.transient typ loc).media = s.media :=
  (State.log_eventsOnly _ _).media

/-- An error of a stored word, by whether it can be corrected and whether it comes again. -/
theorem exec_sramEccError {typ loc : Nat} (check : ReadCheck) (hcore : s.core = true) (htyp : typ ∈ [0x02, 0x03, 0x04, 0x05, 0x0C])
    (hloc : locOk typ loc = true) :
    exec (.sramEccError typ loc check) s = .next (finish s (match check with
      | .clean => s
      | .correctable false | .uncorrectable false => s.transient typ loc
      | .correctable true => s.lasting typ 1 loc
      | .uncorrectable true => (s.lasting typ 1 loc).sramLost typ loc)) := by
  show execSramEccError typ loc check s = _
  refine run_on hcore (if_neg ?_)
  rw [List.contains_iff_mem.2 htyp, hloc]
  exact Bool.false_ne_true

theorem engine_inService {h u : Nat} (hh : h < 32) (hu : u < 7) (hok : bit s.boot.hpOk.toNat h = true) :
    ¬(decide (32 ≤ h) || decide (7 ≤ u) || !bit s.boot.hpOk.toNat h) = true := by
  rw [decide_eq_false (Nat.not_le.2 hh), decide_eq_false (Nat.not_le.2 hu), hok]
  exact Bool.false_ne_true

/-- An error of an engine in service that does not come again. -/
theorem exec_engineCheckError_once {h u : Nat} (hcore : s.core = true) (hh : h < 32) (hu : u < 7)
    (hok : bit s.boot.hpOk.toNat h = true) :
    exec (.engineCheckError h u false) s = .next (finish s (s.transient (engineLoc h u).1 (engineLoc h u).2)) := by
  show execEngineCheckError h u false s = _
  unfold execEngineCheckError
  generalize engineLoc h u = place
  obtain ⟨typ, loc⟩ := place
  exact run_on hcore ((if_neg (engine_inService hh hu hok)).trans (if_pos rfl))

/-- An error of an engine in service that comes again: the half-plain's job faults, and a partition left without one resets itself. -/
theorem exec_engineCheckError_lasting {h u : Nat} {t : State} (hcore : s.core = true) (hh : h < 32) (hu : u < 7)
    (hok : bit s.boot.hpOk.toNat h = true)
    (ht : (s.lasting (engineLoc h u).1 1 (engineLoc h u).2 (2 ^ h)).faultAt h 0x48 = t) :
    exec (.engineCheckError h u true) s = .next (finish s (match halfOwner t h with
      | some p => if (t.workHps p).isEmpty then t.selfReset p else t
      | none => t)) := by
  show execEngineCheckError h u true s = _
  unfold execEngineCheckError
  generalize engineLoc h u = place at ht ⊢
  obtain ⟨typ, loc⟩ := place
  refine run_on hcore ((if_neg (engine_inService hh hu hok)).trans ((if_neg Bool.false_ne_true).trans ?_))
  dsimp only at ht
  rcases hown : halfOwner t h with _ | part
  all_goals
    rw [ht]
    dsimp only
    rw [hown]

theorem mediaCore_inService {core : Nat} (hlt : core < 16) (hok : bit s.boot.mediaOk.toNat core = true) :
    ¬(decide (16 ≤ core) || !bit s.boot.mediaOk.toNat core) = true := by
  rw [decide_eq_false (Nat.not_le.2 hlt), hok]
  exact Bool.false_ne_true
end

/-- Settles O43: each error by its unit and by whether it comes again; TEST_RUN by how the test ended. -/
theorem errorRows : Obligations.ErrorRows := by
  refine ⟨fun s typ loc hcore htyp hloc => ⟨?clean, ?corrected, ?uncorrected, ?corrects, ?lost⟩,
    fun s loc hcore hloc => ⟨?parityOnce, ?parityAgain⟩, fun s h u hcore hh hu hok => ⟨?engineOnce, ?engineAgain⟩,
    fun s core hcore hlt hok hidle => ⟨?mediaOnce, ?mediaAgain⟩, fun s r typ loc rest again hcore htests => ?test⟩
  case clean => exact exec_sramEccError .clean hcore htyp hloc
  case corrected => exact exec_sramEccError (.correctable false) hcore htyp hloc
  case uncorrected => exact exec_sramEccError (.uncorrectable false) hcore htyp hloc
  case corrects => exact exec_sramEccError (.correctable true) hcore htyp hloc
  case lost => exact exec_sramEccError (.uncorrectable true) hcore htyp hloc
  case parityOnce =>
    show execSaddleParityError loc false s = _
    exact run_on hcore ((if_neg (not_not_eq_true hloc)).trans (if_neg Bool.false_ne_true))
  case parityAgain =>
    show execSaddleParityError loc true s = _
    exact run_on hcore ((if_neg (not_not_eq_true hloc)).trans (if_pos rfl))
  case engineOnce => exact exec_engineCheckError_once hcore hh hu hok
  case engineAgain =>
    intro t
    generalize ht : t = faulted
    cases hown : halfOwner faulted h <;> rw [exec_engineCheckError_lasting hcore hh hu hok ht, hown]
  case mediaOnce =>
    show execMediaCoreCheckError core false s = _
    refine run_on hcore ((if_neg (mediaCore_inService hlt hok)).trans ((if_pos rfl).trans ?_))
    dsimp only
    rw [State.transient_media, hidle]
  case mediaAgain =>
    show execMediaCoreCheckError core true s = _
    exact run_on hcore ((if_neg (mediaCore_inService hlt hok)).trans (if_neg Bool.false_ne_true))
  case test =>
    intro t
    have hrow (failed again : Bool) : exec (.testRunDone failed again) s = .next (finish s (
        if !failed then t.complete r ST.ok 0
        else if !again then (t.transient typ loc).complete r ST.ok 1
        else (t.lasting typ 5 loc).complete r ST.ok 2)) := by
      show execTestRunDone failed again s = _
      refine run_on hcore ?_
      rw [htests]
    exact ⟨(hrow false again).trans (congrArg _ (congrArg _ (if_pos rfl))),
      (hrow true false).trans (congrArg _ (congrArg _ ((if_neg Bool.false_ne_true).trans (if_pos rfl)))),
      (hrow true true).trans (congrArg _ (congrArg _ ((if_neg Bool.false_ne_true).trans (if_neg Bool.false_ne_true))))⟩

end Sys2Proof.Machine
end

section
/-! Lolin commands of the device and of partitions (Tables 8-1 to 8-3). -/
namespace Sys2Proof.Machine
open Sys2Proof

section
variable {op m : Nat} {c : Cmd} {s : State} {t : Taken} {chk : State → Block → Taken → Option (Nat × Nat)}
  {eff : State → Req → Taken → State} {u : State}

/-- A command whose own check passes: what its effect leaves. -/
theorem lolin_accepted (h : Accepted op m c s t) (hchk : chk s (entryOf c op) t = none) (heff : eff s ⟨m, c.reqId⟩ t = u) :
    lolin op m c s chk eff = State.refuseDue u m :=
  (lolin_effect h hchk).trans (congrArg (fun v => State.refuseDue v m) heff)

theorem lolin_row (h : Accepted op m c s t) (hchk : chk s (entryOf c op) t = none) (heff : eff s ⟨m, c.reqId⟩ t = u) :
    run State.core s (fun s => lolin op m c s chk eff) = .next (finish s (State.refuseDue u m)) :=
  run_on h.1 (lolin_accepted h hchk heff)

theorem Cmd.uncut (h : c.cut = false) : { c with cut := false } = c := by
  cases c
  cases h
  rfl

/-- A row that no CP exception cuts short behaves as one that may be cut short, where it is not (log entry 141). -/
theorem lolin_accepted_uncut (h : Accepted op m c s t) (hchk : chk s (entryOf c op) t = none) (heff : eff s ⟨m, c.reqId⟩ t = u) :
    lolin op m { c with cut := false } s chk eff = State.refuseDue u m := by
  rw [Cmd.uncut h.2.1]
  exact lolin_accepted h hchk heff

theorem slotCheck_of_slot {e : Block} (hslot : t.slot.isSome = true) : slotCheck s e t = none := if_pos hslot

theorem State.devInfo_identity {page : Nat} (hpage : page = 0) :
    s.devInfo page = 0x0760 + 0x01 * 2 ^ 16 + s.sec.lifecycle * 2 ^ 24 + s.fw.version * 2 ^ 32 := if_pos hpage

theorem State.devInfo_serial {page : Nat} (hpage : page ≠ 0) : s.devInfo page = s.sec.serial.toNat := if_neg hpage

/-! ### DEV_POWER_STATE -/

/-- DEV_POWER_STATE of a chip that no entry holds. -/
theorem exec_devPowerState (h : Accepted 0x0105 m c s t) (hfree : s.powerHeld c.params.toNat = false) (hblocked : s.blocked = 0)
    (heff : effDevPowerState s ⟨m, c.reqId⟩ t = u) :
    exec (.devPowerState m c) s = .next (finish s (State.refuseDue u m)) := by
  show execDevPowerState m c s = _
  exact run_on h.1 ((if_neg (ne_true_of_eq_false hfree)).trans (lolin_accepted_uncut h (if_pos hblocked) heff))

/-- DEV_POWER_STATE that has been taken and is held wakes the chip, or waits for the entry under way (R70 to R72). -/
theorem exec_devPowerState_held (hcore : s.core = true) (htaken : s.taken ⟨m, c.reqId⟩ = some t)
    (hheld : s.powerHeld c.params.toNat = true) :
    exec (.devPowerState m c) s = .next (finish s (if s.power.entry.isNone then s.wake else s)) := by
  have hpresent : s.present ⟨m, c.reqId⟩ (entryOf c 0x0105) = s := if_pos (by rw [htaken]; rfl)
  show execDevPowerState m c s = _
  refine run_on hcore ((if_pos hheld).trans ?_)
  dsimp only
  rw [hpresent, htaken, Option.isSome_some, Bool.and_true]
end

/-- Settles O45: each command by its parameters, by what it finds, and by its slot. -/
theorem deviceCommands : Obligations.DeviceCommands := by
  intro m c s t r p
  refine ⟨fun h hpage => ?info, fun h hpage => ?serial, fun h => ?caps, fun h => ?time, fun h hladder => ?warm,
    fun h hfree hblocked hgoal => ?entry, fun h hfree hblocked hgoal hqsc => ?inQsc, fun hcore htaken hheld => ?held,
    fun h hfree hblocked h1 h2 => ?off, fun h hchk => ?apply, fun a n h hslot => ?write, fun h hslot => ?read,
    fun a n h hslot harea => ?defects⟩
  case info =>
    show execDevInfo m c s = _
    refine lolin_row h rfl ?_
    rw [effDevInfo, State.devInfo_identity hpage]
  case serial =>
    show execDevInfo m c s = _
    refine lolin_row h rfl ?_
    rw [effDevInfo, State.devInfo_serial hpage]
  case caps =>
    show execDevCaps m c s = _
    exact lolin_row h rfl rfl
  case time =>
    show execDevTimeGet m c s = _
    exact lolin_row h rfl rfl
  case warm =>
    show execDevResetWarm m c s = _
    exact run_on h.1 (lolin_accepted_uncut h (if_neg (Nat.not_le.2 hladder)) rfl)
  case entry =>
    refine exec_devPowerState h hfree hblocked ?_
    rcases hgoal with ⟨hgoal, hchip⟩ | hgoal
    · have hqsc : goalOf (eParam t.entry 0 0 2) = .qsc := if_pos hgoal
      have hhere : (s.power.chip == Chip.qsc) = false := beq_false_of_ne hchip
      rw [effDevPowerState, hqsc, hhere]
      rfl
    · have hstby : goalOf (eParam t.entry 0 0 2) = .stby := by rw [show eParam t.entry 0 0 2 = 2 from hgoal]; rfl
      rw [effDevPowerState, hstby]
      rfl
  case inQsc =>
    refine exec_devPowerState h hfree hblocked ?_
    have hgoalQsc : goalOf (eParam t.entry 0 0 2) = .qsc := if_pos hgoal
    rw [effDevPowerState, hgoalQsc, hqsc]
    rfl
  case held => exact exec_devPowerState_held hcore htaken hheld
  case off =>
    refine exec_devPowerState h hfree hblocked ?_
    have hoff : goalOf (eParam t.entry 0 0 2) = .off := (if_neg h1).trans (if_neg h2)
    rw [effDevPowerState, hoff]
    rfl
  case apply =>
    intro u
    refine ⟨fun hnow => ?_, fun hnow => ?_⟩ <;> show execProfileApply m c s = _
    · exact lolin_row h hchk (if_pos hnow)
    · exact lolin_row h hchk (if_neg hnow)
  case write =>
    show execProfileWrite m c s = _
    rcases hchk : chkProfileWrite m s (entryOf c 0x0202) t with _ | ⟨st, res⟩
    · refine lolin_row h hchk ?_
      rw [effProfileWrite, hslot]
    · exact run_on h.1 (lolin_refused h hchk)
  case read =>
    show execProfileRead m c s = _
    exact lolin_row h (slotCheck_of_slot hslot) rfl
  case defects =>
    show execTestDefectsRead m c s = _
    refine lolin_row h (slotCheck_of_slot hslot) ?_
    rw [effTestDefectsRead, harea]
    rfl

/-! ### Partitions -/

section
variable {m : Nat} {c : Cmd} {s : State} {t : Taken} {v : Nat}

/-- ACCT_READ of a partition that is not held by a reset. -/
theorem exec_acctRead (h : Accepted 0x0B01 m c s t) (hfree : s.heldAdmin m c = false)
    (hchk : chkAcctRead m s (entryOf c 0x0B01) t = none)
    (hv : (match (if m = 0 then none else s.streamOf (mbPart m) (eTarget t.entry)) with
      | some x => x.counters.getD (eParam t.entry 0 0 8) 0
      | none => s.partTotal (acctPart m t.entry) (eParam t.entry 0 0 8)) = v) :
    exec (.acctRead m c) s = .next (finish s (State.refuseDue (s.complete ⟨m, c.reqId⟩ ST.ok v) m)) := by
  show execAcctRead m c s = _
  refine run_on h.1 ((if_neg (ne_true_of_eq_false hfree)).trans ((lolin_effect h hchk).trans ?_))
  rw [← hv]
  rfl
end

/-- Settles O46: each command by its target and by what stands there. -/
theorem partitionCommands : Obligations.PartitionCommands := by
  intro m c s t r p q
  refine ⟨fun h hchk => ?create, fun h => ?destroy, fun h => ?reset, fun h => ?query, fun x h hfree hchk hm hstream => ?stream,
    fun h hfree hchk hpart => ?part, fun h hfree hchk => ?mode⟩
  case create =>
    show execPartCreate m c s = _
    exact lolin_row h hchk rfl
  case destroy =>
    show execPartDestroy m c s = _
    exact lolin_row h rfl rfl
  case reset =>
    show execPartReset m c s = _
    exact lolin_row h rfl rfl
  case query =>
    show execPartQuery m c s = _
    exact lolin_row h rfl rfl
  case stream =>
    refine exec_acctRead h hfree hchk ?_
    rw [if_neg hm, hstream]
  case part =>
    refine exec_acctRead h hfree hchk ?_
    have hnone : (if m = 0 then none else s.streamOf (mbPart m) (eTarget t.entry)) = none := by
      rcases hpart with e | e
      · exact if_pos e
      · rw [e]
        exact ite_self _
    rw [hnone]
  case mode =>
    show execAcctModeSet m c s = _
    exact run_on h.1 ((if_neg (ne_true_of_eq_false hfree)).trans (lolin_effect h hchk))

end Sys2Proof.Machine
end

section
/-! Lolin commands of streams, memory, the ledger and KV pools (Tables 8-4 to 8-7). -/
namespace Sys2Proof.Machine
open Sys2Proof

section
variable {m : Nat} {c : Cmd} {s : State} {t : Taken} {r : Req} {x : Stream}

/-! ### STREAM_OPEN -/

theorem effStreamOpen_plain (hkv : eParam t.entry 1 3 1 = 0) :
    effStreamOpen s r t =
      let o := s.openStream {
        index := 0, gen := 0, owner := mbPart r.m, cls := eParam t.entry 0 0 2,
        lateOk := eParam t.entry 0 2 1 == 1, qdepth := eParam t.entry 4 0 7, video := eParam t.entry 8 0 32 }
      o.2.2.complete r ST.ok o.2.1 := by
  rw [effStreamOpen, hkv]
  rfl

theorem effStreamOpen_kv {n : Nat} {o : Nat × Nat × State} (hkv : eParam t.entry 1 3 1 = 1)
    (ho : s.openStream {
      index := 0, gen := 0, owner := mbPart r.m, cls := eParam t.entry 0 0 2,
      lateOk := eParam t.entry 0 2 1 == 1, qdepth := eParam t.entry 4 0 7, video := eParam t.entry 8 0 32 } = o)
    (hpool : o.2.2.openPool r.m t.entry = some n) :
    effStreamOpen s r t =
      let d := o.2.2.kvDraw n (eParam t.entry 2 0 16) { pool := n }
      (d.2.updStream o.1 fun y => { y with kv := some d.1 }).complete r ST.ok o.2.1 := by
  rw [effStreamOpen, hkv]
  dsimp only
  rw [ho, if_pos rfl, hpool]

/-! ### STREAM_SUBMIT -/

theorem submit_room (hroom : x.jobs.length < x.qdepth) (hidle : (s.part x.owner).busy = false) :
    ¬(decide (x.qdepth ≤ x.jobs.length) || (s.part x.owner).busy) = true := by
  rw [decide_eq_false (Nat.not_le.2 hroom), hidle]
  exact Bool.false_ne_true

section
variable (hstream : s.streamOf (mbPart r.m) (eTarget t.entry) = some x)
include hstream

theorem effSubmit_full (hfull : x.qdepth ≤ x.jobs.length ∨ (s.part x.owner).busy = true) :
    effSubmit s r t = (s.count x.index 2 1).complete r ST.busy := by
  rw [effSubmit, hstream]
  refine if_pos ?_
  rcases hfull with h | h
  · rw [decide_eq_true h, Bool.true_or]
  · rw [h, Bool.or_true]

theorem effSubmit_asleep (hroom : x.jobs.length < x.qdepth) (hidle : (s.part x.owner).busy = false)
    (hret : s.submitRet x (eParam t.entry 0 0 64) (eParam t.entry 8 0 16) ≠ []) :
    effSubmit s r t = (s.submitRet x (eParam t.entry 0 0 64) (eParam t.entry 8 0 16)).foldl State.wakePlain s := by
  rw [effSubmit, hstream]
  refine (if_neg (submit_room hroom hidle)).trans (if_pos ?_)
  rw [Bool.not_eq_true', List.isEmpty_eq_false_iff]
  exact hret

theorem effSubmit_valid (hroom : x.jobs.length < x.qdepth) (hidle : (s.part x.owner).busy = false)
    (hret : s.submitRet x (eParam t.entry 0 0 64) (eParam t.entry 8 0 16) = [])
    (hvalid : s.validate x (eParam t.entry 0 0 64) (eParam t.entry 8 0 16) = none) :
    effSubmit s r t =
      let j := s.jobOf x r t.entry
      let u : State := (s.updStream x.index fun y => { y with
        items := y.items ++ [.job { j with pred := s.predictJob x j, width := s.widthOf x j }], nextJob := y.nextJob + 1,
        fLast := (if x.fLast < s.now then (s.now : Rat) else x.fLast) + s.predictJob x j }).hold1 x.owner
      if s.tooLate x (s.predictJob x j) (s.widthOf x j) j.deadline then (s.count x.index 1 1).complete r ST.latePredicted
      else (if j.waitEnd then u.wait r else u.complete r ST.ok (j.number % 2 ^ 32)).advance := by
  rw [effSubmit, hstream]
  refine (if_neg (submit_room hroom hidle)).trans ((if_neg ?_).trans ?_)
  · rw [hret]
    exact Bool.false_ne_true
  · rw [hvalid]
end

/-! ### STREAM_CANCEL, STREAM_CLOSE, STREAM_QUERY -/

theorem closingCheck_opened {e : Block} (hopen : x.state = .opened) (hstream : s.streamOf (mbPart m) (eTarget e) = some x) :
    closingCheck s m e = none := by
  rw [closingCheck, hstream]
  exact if_pos (by rw [hopen]; rfl)

theorem chkStreamClose_opened {e : Block} (hopen : x.state = .opened) (hstream : s.streamOf (mbPart m) (eTarget e) = some x) :
    chkStreamClose m s e t = none := by
  rw [chkStreamClose, hstream]
  refine (if_neg ?_).trans (closingCheck_opened hopen hstream)
  rw [hopen]
  exact Bool.false_ne_true

theorem chkStreamClose_teardown {e : Block} (hdown : x.state = .teardown) (hclose : x.close = none)
    (hstream : s.streamOf (mbPart m) (eTarget e) = some x) : chkStreamClose m s e t = none := by
  rw [chkStreamClose, hstream]
  exact if_pos (by rw [hdown, hclose]; rfl)
end

/-- Settles O47: each command by the state of its stream, and a submission by the checks of R188 to R193. -/
theorem streamCommands : Obligations.StreamCommands := by
  intro m c s t r p
  refine ⟨fun h hchk => ?opens, fun x hstream => ⟨fun h hchk hfull => ?full, fun h hchk hroom hidle hret hvalid => ?submit,
    fun h hchk hroom hidle hret => ?asleep, fun h hopen htarget => ?cancel, fun h hopen htarget => ?close,
    fun h hdown hclose htarget => ?join, fun h hopen htarget => ?query⟩⟩
  case opens =>
    intro o
    refine ⟨fun hkv => ?_, fun n hkv hpool => ?_⟩ <;> show execStreamOpen m c s = _
    · exact lolin_row h hchk (effStreamOpen_plain hkv)
    · exact lolin_row h hchk (effStreamOpen_kv hkv rfl hpool)
  case full =>
    show execStreamSubmit m c s = _
    exact lolin_row h hchk (effSubmit_full hstream hfull)
  case submit =>
    show execStreamSubmit m c s = _
    exact lolin_row h hchk (effSubmit_valid hstream hroom hidle hret hvalid)
  case asleep =>
    show execStreamSubmit m c s = _
    exact lolin_row h hchk (effSubmit_asleep hstream hroom hidle hret)
  case cancel =>
    show execStreamCancel m c s = _
    refine lolin_row h (closingCheck_opened hopen htarget) ?_
    rw [effStreamCancel, hstream]
  case close =>
    show execStreamClose m c s = _
    refine lolin_row h (chkStreamClose_opened hopen htarget) ?_
    rw [effStreamClose, hstream]
    refine if_neg ?_
    rw [hopen]
    exact Bool.false_ne_true
  case join =>
    show execStreamClose m c s = _
    refine lolin_row h (chkStreamClose_teardown hdown hclose htarget) ?_
    rw [effStreamClose, hstream]
    exact if_pos (by rw [hdown]; rfl)
  case query =>
    show execStreamQuery m c s = _
    refine lolin_row h (closingCheck_opened hopen htarget) ?_
    rw [effStreamQuery, hstream]

/-! ### Memory, the ledger and KV -/

section
variable {m : Nat} {s : State} {t : Taken} {r : Req} {x : Stream}

theorem effKv_one (hstream : s.streamOf (mbPart r.m) (eTarget t.entry) = some x) (hop : eOpcode t.entry ≠ 0x0603) :
    effKv s r t = ((s.wait r).gate x.index r).advance := by
  have hno (y : Stream) : ¬(decide (eOpcode t.entry = 0x0603) && y.index != x.index) = true := by
    rw [decide_eq_false hop, Bool.false_and]
    exact Bool.false_ne_true
  rw [effKv, hstream]
  refine congrArg State.advance ?_
  cases ((s.wait r).gate x.index r).forkDest r.m t.entry with
  | none => rfl
  | some y => exact if_neg (hno y)

theorem effKv_fork {y : Stream} (hstream : s.streamOf (mbPart r.m) (eTarget t.entry) = some x) (hop : eOpcode t.entry = 0x0603)
    (hdest : ((s.wait r).gate x.index r).forkDest r.m t.entry = some y) :
    effKv s r t = (if y.index ≠ x.index then (((s.wait r).gate x.index r).gate y.index r)
      else ((s.wait r).gate x.index r)).advance := by
  rw [effKv, hstream]
  refine congrArg State.advance ?_
  rw [hdest]
  dsimp only
  rw [decide_eq_true hop, Bool.true_and]
  by_cases hsame : y.index = x.index
  · rw [if_neg (not_not.2 hsame), if_neg (by rw [hsame, bne_self_eq_false]; exact Bool.false_ne_true)]
  · rw [if_pos hsame, if_pos (bne_iff_ne.2 hsame)]
end

/-- Settles O48: each command by what its check has found. -/
theorem memoryCommands : Obligations.MemoryCommands := by
  intro m c s t r p
  refine ⟨fun a h hasked hfound => ?alloc, fun x h hchk hfound => ?free, fun h hchk => ?reserve, fun h hown => ?release,
    fun h => ?ledger, fun n h hchk hfree => ?create, fun n h hchk hpool => ?destroy, fun x y h hchk hop hstream hdest => ?fork,
    fun x hstream => ⟨fun h hchk hop => ?truncate, fun h hchk hop => ?pin⟩⟩
  case alloc =>
    show execMemAlloc m c s = _
    refine lolin_row h (if_neg ?_) ?_
    · rw [hasked]
      exact Bool.false_ne_true
    · rw [effMemAlloc, hfound]
  case free =>
    show execMemFree m c s = _
    refine lolin_row h hchk ?_
    rw [effMemFree, hfound]
  case reserve =>
    show execLedgerReserve m c s = _
    exact lolin_row h hchk rfl
  case release =>
    show execLedgerRelease m c s = _
    refine lolin_row h (if_neg ?_) rfl
    rw [← Option.not_isSome, hown]
    exact Bool.false_ne_true
  case ledger =>
    show execLedgerQuery m c s = _
    exact lolin_row h rfl rfl
  case create =>
    intro k u
    show execKvPoolCreate m c s = _
    refine lolin_row h hchk ?_
    rw [effKvPoolCreate, hfree]
  case destroy =>
    show execKvPoolDestroy m c s = _
    refine lolin_row h hchk ?_
    rw [effKvPoolDestroy, hpool]
    rfl
  case fork =>
    show execKvFork m c s = _
    exact lolin_row h hchk (effKv_fork hstream hop hdest)
  case truncate =>
    show execKvTruncate m c s = _
    exact lolin_row h hchk (effKv_one hstream (by rw [hop]; decide))
  case pin =>
    show execKvPinPrefix m c s = _
    exact lolin_row h hchk (effKv_one hstream (by rw [hop]; decide))

end Sys2Proof.Machine
end

section
/-! Lolin commands of sync objects, Ford windows and the media complex (Tables 8-8 to 8-10). -/
namespace Sys2Proof.Machine
open Sys2Proof

/-- Settles O49: each command by its target and by what its check has found. -/
theorem syncFordAndMediaCommands : Obligations.SyncFordAndMediaCommands := by
  intro m c s t r p
  refine ⟨fun h hchk => ?syncAlloc,
    fun x hsync => ⟨fun h hchk => ?syncFree, fun h hchk => ?syncRecover, fun h => ?syncQuery⟩,
    fun h hchk => ?fordMap, fun h hchk hnow => ?unmapNow, fun h hchk hlater => ?unmapLater,
    fun d cs a h hchk hplan => ?encOpen,
    fun x henc => ⟨fun h hclosing hframe => ?encClose, fun h hclosing hframe => ?encCloses, fun h => ?keyRequest, fun h => ?roiSet,
      fun h hchk => ?layerSet⟩,
    fun cs h hchk hcores => ?decOpen, fun x hdec => ⟨fun h => ?decFlush, fun h => ?decClose⟩⟩
  case syncAlloc =>
    show execSyncAlloc m c s = _
    exact lolin_row h hchk rfl
  case syncFree =>
    show execSyncFree m c s = _
    refine lolin_row h hchk ?_
    rw [effSyncFree, hsync]
  case syncRecover =>
    show execSyncRecover m c s = _
    refine lolin_row h hchk ?_
    rw [effSyncRecover, hsync]
  case syncQuery =>
    show execSyncQuery m c s = _
    refine lolin_row h rfl ?_
    rw [effSyncQuery, hsync]
  case fordMap =>
    show execFordMap m c s = _
    exact lolin_row h hchk rfl
  case unmapNow =>
    show execFordUnmap m c s = _
    exact lolin_row h hchk (if_pos hnow)
  case unmapLater =>
    show execFordUnmap m c s = _
    exact lolin_row h hchk (if_neg hlater)
  case encOpen =>
    show execMediaEncOpen m c s = _
    refine lolin_row h hchk ?_
    rw [effMediaEncOpen, hplan]
  case encClose =>
    show execMediaEncClose m c s = _
    refine lolin_row h rfl ?_
    rw [effMediaEncClose, henc]
    refine (if_neg ?_).trans (if_neg ?_)
    · rw [hclosing]
      exact Bool.false_ne_true
    · rw [hframe]
      exact Bool.false_ne_true
  case encCloses =>
    show execMediaEncClose m c s = _
    refine lolin_row h rfl ?_
    rw [effMediaEncClose, henc]
    refine (if_neg ?_).trans (if_pos hframe)
    rw [hclosing]
    exact Bool.false_ne_true
  case keyRequest =>
    show execMediaKeyRequest m c s = _
    refine lolin_row h rfl ?_
    rw [effMediaKeyRequest, henc]
  case roiSet =>
    show execMediaRoiSet m c s = _
    refine lolin_row h rfl ?_
    rw [effMediaRoiSet, henc]
  case layerSet =>
    show execMediaLayerSet m c s = _
    refine lolin_row h hchk ?_
    rw [effMediaLayerSet, henc]
  case decOpen =>
    show execMediaDecOpen m c s = _
    refine lolin_row h hchk ?_
    rw [effMediaDecOpen, hcores]
  case decFlush =>
    show execMediaDecFlush m c s = _
    refine lolin_row h rfl ?_
    rw [effMediaDecFlush, hdec]
    rfl
  case decClose =>
    show execMediaDecClose m c s = _
    refine lolin_row h rfl ?_
    rw [effMediaDecClose, hdec]

end Sys2Proof.Machine
end

section
/-! Lolin commands of the Passes and the Valley, of security and firmware, and of tests and rails (Tables 8-11 to 8-17). -/
namespace Sys2Proof.Machine
open Sys2Proof

/-- Settles O50: each command by its port, its group or its route. -/
theorem linkCommands : Obligations.LinkCommands := by
  intro m c s t r p
  refine ⟨fun h hchk => ?retrain, fun h => ?status, fun h => ?join, fun h => ?leave, fun h hchk => ?route,
    fun h hchk hhere => ?create, fun x h hgroup => ?destroy⟩
  case retrain =>
    show execPassRetrain m c s = _
    exact lolin_row h hchk rfl
  case status =>
    show execPassStatus m c s = _
    exact lolin_row h rfl rfl
  case join =>
    show execValleyJoin m c s = _
    exact lolin_row h rfl rfl
  case leave =>
    show execValleyLeave m c s = _
    exact lolin_row h rfl rfl
  case route =>
    show execValleyRouteSet m c s = _
    exact lolin_row h hchk rfl
  case create =>
    show execCollGroupCreate m c s = _
    refine lolin_row h hchk (if_neg ?_)
    rw [show s.vMissing (eParam t.entry 16 0 64) (2 * eParam t.entry 4 0 13) = [] from hhere]
    exact Bool.false_ne_true
  case destroy =>
    show execCollGroupDestroy m c s = _
    refine lolin_row h rfl ?_
    rw [effCollGroupDestroy, hgroup]

/-! ### Security and firmware -/

section
variable {op m : Nat} {c : Cmd} {s u : State} {t : Taken}

theorem effFw_begun {r : Req} {d : State × Option Nat} (hidle : s.fw.busy = none) (hbegin : s.fwBegin r t = d) :
    effFw s r t = match d.2 with
      | some res => d.1.fwEnd r ST.ok res
      | none => d.1 := by
  rw [effFw, hbegin]
  refine (if_neg ?_).trans ?_
  · rw [hidle]
    exact Bool.false_ne_true
  · obtain ⟨u, _ | res⟩ := d <;> rfl

theorem chkFw_idle {e : Block} (hidle : s.fw.busy = none) (hchk : fwCheck s e t = none) : chkFw s e t = none := by
  refine (if_neg ?_).trans hchk
  rw [hidle]
  exact Bool.false_ne_true

theorem chkFw_busy {e : Block} (hbusy : s.fw.busy.isSome = true) : chkFw s e t = none := if_pos hbusy

/-- The four firmware commands that begin work are one row under their opcodes. -/
theorem exec_firmware {i : Instr} (hrow : (i = .fwDownload m c ∧ op = 0x0D01) ∨ (i = .fwVerify m c ∧ op = 0x0D02) ∨
      (i = .fwActivate m c ∧ op = 0x0D03) ∨ (i = .fwConfirm m c ∧ op = 0x0D04)) (s : State) :
    exec i s = run State.core s fun s => lolin op m c s chkFw effFw := by
  rcases hrow with ⟨rfl, rfl⟩ | ⟨rfl, rfl⟩ | ⟨rfl, rfl⟩ | ⟨rfl, rfl⟩
  · show execFwDownload m c s = _
    rfl
  · show execFwVerify m c s = _
    rfl
  · show execFwActivate m c s = _
    rfl
  · show execFwConfirm m c s = _
    rfl

/-- What a SEC_LIFECYCLE_SET does whose request is not yet under way: it begins where it is authorised, and is denied else. -/
theorem exec_secLifecycleSet (h : Accepted 0x0C05 m c s t) (hslot : t.slot.isSome = true) (hidle : s.sec.lifecycleReq = none) :
    exec (.secLifecycleSet m c) s = .next (finish s (State.refuseDue (
      if s.authorised (s.slotRead ⟨m, eId (entryOf c 0x0C05)⟩ t) (eParam (entryOf c 0x0C05) 0 0 3) then
        effSecLifecycleSet s ⟨m, c.reqId⟩ t
      else s.complete ⟨m, c.reqId⟩ ST.secDenied) m)) := by
  have hfull : ¬t.slot.isNone = true := by
    rw [← Option.not_isSome, hslot]
    exact Bool.false_ne_true
  show execSecLifecycleSet m c s = _
  by_cases hauth : s.authorised (s.slotRead ⟨m, eId (entryOf c 0x0C05)⟩ t) (eParam (entryOf c 0x0C05) 0 0 3) = true
  · rw [if_pos hauth]
    refine lolin_row h ((if_neg hfull).trans (if_neg ?_)) rfl
    rw [hidle, hauth]
    exact Bool.false_ne_true
  · rw [if_neg hauth]
    refine run_on h.1 (lolin_refused h ((if_neg hfull).trans (if_pos ?_)))
    rw [hidle, Bool.eq_false_iff.2 hauth]
    rfl
end

/-- Settles O51: each command by its slot, by what it is granted, and by the firmware command under way. -/
theorem securityAndFirmwareCommands : Obligations.SecurityAndFirmwareCommands := by
  intro m c s t r p
  refine ⟨fun h hchk => ?attest, fun h hslot hlive => ?challenge, fun h hslot => ?unlock, fun h => ?lock,
    fun h hslot hidle => ?lifecycle,
    fun i op hrow => ⟨fun h hbusy => ?waits, fun u res h hidle hchk hbegin => ?done, fun u h hidle hchk hbegin => ?begun⟩,
    fun h => ?status⟩
  case attest =>
    show execSecAttest m c s = _
    exact lolin_row h hchk rfl
  case challenge =>
    show execSecDebugChallenge m c s = _
    refine lolin_row h ((if_neg ?_).trans (if_neg hlive)) rfl
    rw [← Option.not_isSome, hslot]
    exact Bool.false_ne_true
  case unlock =>
    show execSecDebugUnlock m c s = _
    refine lolin_row h (slotCheck_of_slot hslot) ?_
    unfold effSecDebugUnlock
    generalize s.debugGrant (s.slotRead r t) = granted
    rcases granted with _ | _ | _ | _ | level <;> rfl
  case lock =>
    show execSecDebugLock m c s = _
    exact lolin_row h rfl rfl
  case lifecycle => exact exec_secLifecycleSet h hslot hidle
  case waits =>
    rw [exec_firmware hrow]
    exact lolin_row h (chkFw_busy hbusy) (if_pos hbusy)
  case done =>
    rw [exec_firmware hrow]
    exact lolin_row h (chkFw_idle hidle hchk) (effFw_begun hidle hbegin)
  case begun =>
    rw [exec_firmware hrow]
    exact lolin_row h (chkFw_idle hidle hchk) (effFw_begun hidle hbegin)
  case status =>
    show execFwStatus m c s = _
    exact lolin_row h rfl rfl

/-! ### Tests and rails -/

section
variable {m : Nat} {c : Cmd} {s : State} {t : Taken} {d : Defect}

/-- HBM_REPAIR of a listed row, by whether its bank has a repair left and its Basin is in service. -/
theorem exec_hbmRepair (h : Accepted 0x0E03 m c s t) (hasked : s.rowEntry (eParam (entryOf c 0x0E03) 0 0 12) = some d)
    (hrow : s.rowEntry (eParam t.entry 0 0 12) = some d) :
    exec (.hbmRepair m c) s = .next (finish s (State.refuseDue (
      if !Config.hardRepairLeft (bankOf d.loc) (s.hardRepairs (bankOf d.loc)) then s.complete ⟨m, c.reqId⟩ ST.repairExhausted
      else if (s.basin (bits d.loc 0 3)).state = .failed then s.complete ⟨m, c.reqId⟩ ST.repairFailed
      else (s.updBasin (bits d.loc 0 3) fun x =>
        { x with repairReqs := x.repairReqs ++ [(⟨m, c.reqId⟩, eParam t.entry 0 0 12, s.now)] }).wait ⟨m, c.reqId⟩) m)) := by
  show execHbmRepair m c s = _
  by_cases hleft : Config.hardRepairLeft (bankOf d.loc) (s.hardRepairs (bankOf d.loc)) = true
  · rw [if_neg (not_not_eq_true hleft)]
    refine lolin_row h ?_ ?_
    · rw [chkHbmRepair, hasked]
      exact if_pos hleft
    · rw [effHbmRepair]
      dsimp only
      rw [hrow]
      by_cases hfailed : (s.basin (bits d.loc 0 3)).state = .failed
      · exact (if_pos (beq_iff_eq.2 hfailed)).trans (if_pos hfailed).symm
      · exact (if_neg fun h => hfailed (beq_iff_eq.1 h)).trans (if_neg hfailed).symm
  · rw [if_pos (by rw [Bool.eq_false_iff.2 hleft]; rfl)]
    refine run_on h.1 (lolin_refused h ?_)
    rw [chkHbmRepair, hasked]
    exact if_neg hleft
end

/-- Settles O52: each command by its unit. -/
theorem testAndRailCommands : Obligations.TestAndRailCommands := by
  intro m c s t r p
  refine ⟨fun h hchk => ?test, fun d h hasked hrow => exec_hbmRepair h hasked hrow, fun h hgood => ?retrain, fun h => ?rail,
    fun h hchk => ?threshold, fun h hplain => ?plain, fun h hbasin => ?basin⟩
  case test =>
    show execTestRun m c s = _
    exact lolin_row h hchk rfl
  case retrain =>
    show execHbmRetrain m c s = _
    refine lolin_row h (if_neg ?_) rfl
    rw [beq_false_of_ne hgood]
    exact Bool.false_ne_true
  case rail =>
    show execRailStatus m c s = _
    exact lolin_row h rfl rfl
  case threshold =>
    show execRailThreshSet m c s = _
    exact lolin_row h hchk rfl
  case plain =>
    show execThermalQuery m c s = _
    refine lolin_row h rfl ?_
    unfold effThermalQuery
    exact congrArg (fun v => s.complete ⟨m, c.reqId⟩ ST.ok v) (if_pos hplain)
  case basin =>
    show execThermalQuery m c s = _
    refine lolin_row h rfl ?_
    unfold effThermalQuery
    exact congrArg (fun v => s.complete ⟨m, c.reqId⟩ ST.ok v) (if_neg hbasin)

end Sys2Proof.Machine
end
